-- ==== Sys2Proof/Word.lean ====
section
/-! DEFINITION. The two word types of LBM-CORE: the 8-bit byte every sensor reading, record, duty value and
attenuation level is (R12, R88), and the 16-bit command word and serial frame (R120, R129). -/

namespace Sys2Proof

/-- An 8-bit value: a reading, a record, a slot's content, a duty value, a level (R12, R88). -/
abbrev Byte := BitVec 8

/-- A 16-bit value: a command word (R120) or an attenuator frame (R129). -/
abbrev Word := BitVec 16

end Sys2Proof
end

