-- ==== Sys2Proof/Syntax.lean ====
section
/-! DEFINITION. The commands of LBM-CORE as syntax: one constructor of `Instr` per row of spec/opcode_table.json
(R121), and the reasons a command word is reserved (R130). -/

namespace Sys2Proof

/-- A physical switch, s ∈ {0, 1} (R15, R125 field S). -/
inductive SwitchId where
  | sw0
  | sw1
  deriving DecidableEq, Repr, Inhabited

/-- A debounced edge (R125 field E: 0 = PRESS, 1 = RELEASE). -/
inductive Edge where
  | press
  | release
  deriving DecidableEq, Repr, Inhabited

/-- The operations of the command word (R121), with their operands as R125 gives them. -/
inductive Instr where
  /-- NOP (R165). -/
  | nop
  /-- TICK (R160). -/
  | tick
  /-- DEBOUNCE sw<S> (R180). -/
  | debounce (s : SwitchId)
  /-- SWEVT sw<S>, press or release (R182). -/
  | swevt (s : SwitchId) (e : Edge)
  /-- RVCUPD, with field F: `true` = force (R200). -/
  | rvcupd (force : Bool)
  /-- STEPSET level (R220). -/
  | stepset (level : Byte)
  /-- VUSAMP (R270). -/
  | vusamp
  /-- RENDER (R240). -/
  | render
  /-- BATSAMP (R290). -/
  | batsamp
  /-- OVRSTART n, the flash count n = K + 1 ∈ {1, 2} in the width of OVR_N (R250, R47). -/
  | ovrstart (n : BitVec 2)
  /-- PREFINIT (R301). -/
  | prefinit
  /-- PREFREAD (R302). -/
  | prefread
  /-- PREFWRITE record (R303). -/
  | prefwrite (record : Byte)
  deriving DecidableEq, Repr

/-- Why a command word is reserved (R130). -/
inductive Reserved where
  /-- OP ∈ {0xD, 0xE, 0xF}. -/
  | op
  /-- A MOD bit is 1 that R121 does not name for the OP. -/
  | modifier
  /-- DATA is not 0 and R121 gives the OP no DATA. -/
  | data
  deriving DecidableEq, Repr

end Sys2Proof
end

