-- ==== Sys2Proof/WellFormed.lean ====
section
/-! DEFINITION. Which terms of `Instr` are commands: the one operand whose type is wider than its legal values is
the flash count of OVRSTART, n ∈ {1, 2} (R125, R250). -/

namespace Sys2Proof

/-- The instruction is one the command word can carry. -/
def Instr.wellFormed : Instr → Bool
  | .nop => true
  | .tick => true
  | .debounce _ => true
  | .swevt _ _ => true
  | .rvcupd _ => true
  | .stepset _ => true
  | .vusamp => true
  | .render => true
  | .batsamp => true
  | .ovrstart n => n == 1#2 || n == 2#2
  | .prefinit => true
  | .prefread => true
  | .prefwrite _ => true

end Sys2Proof
end

