-- ==== Sys2Proof/Decode.lean ====
section
/-! DEFINITION. The command word (R120, R121, R125, R130): the decoder, total on every 16-bit word and refusing by
name, then the encoder, then the rows of the opcode table as masks and patterns (R131). -/

namespace Sys2Proof

/-- OP, bits 15:12 (R120). -/
def opField (w : Word) : BitVec 4 := w.extractLsb' 12 4

/-- MOD, bits 11:8 (R120). -/
def modField (w : Word) : BitVec 4 := w.extractLsb' 8 4

/-- DATA, bits 7:0 (R120). -/
def dataField (w : Word) : Byte := w.extractLsb' 0 8

/-- The switch MOD[0] selects (R125 field S). -/
def switchOf (b : Bool) : SwitchId := if b then .sw1 else .sw0

/-- The edge MOD[1] names (R125 field E: 1 = RELEASE). -/
def edgeOf (b : Bool) : Edge := if b then .release else .press

/-- The flash count n = K + 1 (R125 field K). -/
def flashCountOf (b : Bool) : BitVec 2 := if b then 2#2 else 1#2

/-- Accept `i` for `w` unless a MOD bit outside `used` is set, or DATA is set where the operation takes none (R130). -/
def accept (used : BitVec 4) (takesData : Bool) (w : Word) (i : Instr) : Except Reserved Instr :=
  if modField w &&& ~~~used ≠ 0#4 then .error .modifier
  else if !takesData && dataField w != 0#8 then .error .data
  else .ok i

/-- The operation a command word selects (R121), or why the word is reserved (R130). -/
def decode (w : Word) : Except Reserved Instr :=
  match (opField w).toNat with
  | 0x0 => accept 0b0000#4 false w .nop
  | 0x1 => accept 0b0000#4 false w .tick
  | 0x2 => accept 0b0001#4 false w (.debounce (switchOf ((modField w).getLsbD 0)))
  | 0x3 => accept 0b0011#4 false w
      (.swevt (switchOf ((modField w).getLsbD 0)) (edgeOf ((modField w).getLsbD 1)))
  | 0x4 => accept 0b0001#4 false w (.rvcupd ((modField w).getLsbD 0))
  | 0x5 => accept 0b0000#4 true w (.stepset (dataField w))
  | 0x6 => accept 0b0000#4 false w .vusamp
  | 0x7 => accept 0b0000#4 false w .render
  | 0x8 => accept 0b0000#4 false w .batsamp
  | 0x9 => accept 0b0001#4 false w (.ovrstart (flashCountOf ((modField w).getLsbD 0)))
  | 0xA => accept 0b0000#4 false w .prefinit
  | 0xB => accept 0b0000#4 false w .prefread
  | 0xC => accept 0b0000#4 true w (.prefwrite (dataField w))
  | _ => .error .op

/-- The command word of an operation, DATA and MOD as R121 lays them out (the words of R133's table). -/
def commandWord (op modifier : BitVec 4) (data : Byte) : Word := op ++ modifier ++ data

/-- Field S (R125). -/
def switchBit : SwitchId → BitVec 4
  | .sw0 => 0b0000#4
  | .sw1 => 0b0001#4

/-- Field E (R125). -/
def edgeBit : Edge → BitVec 4
  | .press => 0b0000#4
  | .release => 0b0010#4

/-- The command word of an instruction (R121, R133). -/
def encode : Instr → Word
  | .nop => commandWord 0x0#4 0#4 0#8
  | .tick => commandWord 0x1#4 0#4 0#8
  | .debounce s => commandWord 0x2#4 (switchBit s) 0#8
  | .swevt s e => commandWord 0x3#4 (edgeBit e ||| switchBit s) 0#8
  | .rvcupd force => commandWord 0x4#4 (if force then 1#4 else 0#4) 0#8
  | .stepset level => commandWord 0x5#4 0#4 level
  | .vusamp => commandWord 0x6#4 0#4 0#8
  | .render => commandWord 0x7#4 0#4 0#8
  | .batsamp => commandWord 0x8#4 0#4 0#8
  | .ovrstart n => commandWord 0x9#4 ((n - 1#2).setWidth 4) 0#8
  | .prefinit => commandWord 0xA#4 0#4 0#8
  | .prefread => commandWord 0xB#4 0#4 0#8
  | .prefwrite record => commandWord 0xC#4 0#4 record

/-- One row of the opcode table: a word is the row's when its bits under `mask` are `pattern` (R131). -/
structure OpRow where
  mnemonic : String
  pattern : Word
  mask : Word
  deriving DecidableEq, Repr

/-- The word is one of the row's. -/
def rowMatches (r : OpRow) (w : Word) : Bool := w &&& r.mask == r.pattern

/-- The 13 rows of spec/opcode_table.json (R131). -/
def opTable : List OpRow :=
  [⟨"NOP", 0x0000, 0xFFFF⟩, ⟨"TICK", 0x1000, 0xFFFF⟩, ⟨"DEBOUNCE", 0x2000, 0xFEFF⟩,
   ⟨"SWEVT", 0x3000, 0xFCFF⟩, ⟨"RVCUPD", 0x4000, 0xFEFF⟩, ⟨"STEPSET", 0x5000, 0xFF00⟩,
   ⟨"VUSAMP", 0x6000, 0xFFFF⟩, ⟨"RENDER", 0x7000, 0xFFFF⟩, ⟨"BATSAMP", 0x8000, 0xFFFF⟩,
   ⟨"OVRSTART", 0x9000, 0xFEFF⟩, ⟨"PREFINIT", 0xA000, 0xFFFF⟩, ⟨"PREFREAD", 0xB000, 0xFFFF⟩,
   ⟨"PREFWRITE", 0xC000, 0xFF00⟩]

/-- The row an instruction belongs to, by its mnemonic in the table. -/
def mnemonicOf : Instr → String
  | .nop => "NOP"
  | .tick => "TICK"
  | .debounce _ => "DEBOUNCE"
  | .swevt _ _ => "SWEVT"
  | .rvcupd _ => "RVCUPD"
  | .stepset _ => "STEPSET"
  | .vusamp => "VUSAMP"
  | .render => "RENDER"
  | .batsamp => "BATSAMP"
  | .ovrstart _ => "OVRSTART"
  | .prefinit => "PREFINIT"
  | .prefread => "PREFREAD"
  | .prefwrite _ => "PREFWRITE"

/-- The word on the cmd port for a table word given as a number: the low `nbits` bits of `w`, zeros above. The word is
delivered whole, so there is no byte order to undo (R89). -/
def portWord (nbits w : Nat) : Word := BitVec.ofNat 16 (w % 2 ^ nbits)

/-- The instruction the decoder reads from a table word (none where it refuses, or where the word does not fit the
16-bit port, R132). -/
def decodeTableWord (nbits w : Nat) : Option Instr :=
  if w % 2 ^ nbits < 65536 then (decode (portWord nbits w)).toOption else none

end Sys2Proof
end

