-- ==== Sys2Proof/Config.lean ====
section
/-! DEFINITION. What is fixed for the life of a model instance (R55): the parameters the spec gives a value (R9, R10),
the OPEN parameters as opaque constants that no proof can see into, and the opaque draws an input port answers with
when no value is scripted for it (R22). -/

namespace Sys2Proof

/-- A colour: three 8-bit duty values, red first (R18). -/
structure Rgb where
  r : Byte
  g : Byte
  b : Byte
  deriving DecidableEq, Repr, Inhabited

/-- A sensor channel of the ADC port (R15). -/
inductive Channel where
  | rvc
  | audio
  | batt
  deriving DecidableEq, Repr, Inhabited

/-- The NV write law (R10 NV_PROGRAM, R82). -/
inductive NvProgram where
  | replace
  | clearOnly
  deriving DecidableEq, Repr, Inhabited

namespace Config

/-! ### Parameters fixed by the source (R9) -/

/-- TICK_HZ. -/
abbrev tickHz : Nat := 100
/-- TC_MOD: TickCounter range 0..99. -/
abbrev tcMod : Nat := 100
/-- SUB_DIV: attenuation, VU and render every 5th tick. -/
abbrev subDiv : Nat := 5
/-- BATT_DIV: one battery sample per full wrap of TC. -/
abbrev battDiv : Nat := 100
/-- DEB_N: consecutive differing samples that commit a switch. -/
abbrev debN : Nat := 5
/-- ATT_MAX: mute. -/
abbrev attMax : Nat := 64
/-- RVC_OPEN: a raw reading above this means no control is connected. -/
abbrev rvcOpen : Nat := 224
/-- Breakpoint E of DefaultWithMute. -/
abbrev curveE : Nat := 6
/-- Breakpoint A of DefaultWithMute. -/
abbrev curveA : Nat := 192
/-- Breakpoint B of DefaultWithMute. -/
abbrev curveB : Nat := 14
/-- Breakpoint C of DefaultWithMute. -/
abbrev curveC : Nat := 48
/-- Breakpoint D of DefaultWithMute. -/
abbrev curveD : Nat := 236
/-- TRAD_LEN: entries of TRAD_TABLE. -/
abbrev tradLen : Nat := 134
/-- TRAD_REV: the reversal constant. -/
abbrev tradRev : Nat := 133
/-- TRAD_MAX: the largest entry. -/
abbrev tradMax : Nat := 12
/-- STEP_DELAY in nanoseconds (50 µs). -/
abbrev stepDelayNs : Nat := 50000
/-- T_SU in nanoseconds. -/
abbrev tSuNs : Nat := 100
/-- T_H in nanoseconds. -/
abbrev tHNs : Nat := 50
/-- ADDR_FIELD of a serial frame. -/
abbrev addrField : Byte := 0x00#8
/-- VU_READS: audio readings per VU sample. -/
abbrev vuReads : Nat := 20
/-- VU_WIN: slots of the peak window. -/
abbrev vuWinLen : Nat := 4
/-- VU_IDX_MAX: clamp of the display index. -/
abbrev vuIdxMax : Nat := 127
/-- PULSE_STEP. -/
abbrev pulseStepSize : Nat := 6
/-- OVR_IP: renders of InitialPause. -/
abbrev ovrIp : Nat := 10
/-- OVR_ON: renders of FlashOn. -/
abbrev ovrOn : Nat := 4
/-- OVR_OFF: renders of FlashOff. -/
abbrev ovrOff : Nat := 4
/-- OVR_FP: renders of FinalPause. -/
abbrev ovrFp : Nat := 10
/-- BATT_G watermark. -/
abbrev battG : Nat := 99
/-- BATT_Y watermark. -/
abbrev battY : Nat := 92
/-- BATT_R watermark. -/
abbrev battR : Nat := 84
/-- NV_SLOTS. -/
abbrev nvSlots : Nat := 512
/-- N_SW. -/
abbrev nSw : Nat := 2
/-- N_LEDMODE. -/
abbrev nLedMode : Nat := 8

/-! ### Parameters the spec chose a value for (R10) -/

/-- VU_MID (D20). -/
abbrev vuMid : Nat := 128
/-- VU_MAX, the "maximum" VuState (D22). -/
abbrev vuMax : BitVec 16 := 0xFFFF#16
/-- SW_MODE_INDEX = 0: switch 0 is the "mode" switch (D7). -/
abbrev swMode : SwitchId := .sw0
/-- NV_PROGRAM = replace (D34). -/
abbrev nvProgram : NvProgram := .replace
/-- An erased slot (R80). -/
abbrev erasedByte : Byte := 0xFF#8
/-- OFF (R18). -/
abbrev off : Rgb := ⟨0#8, 0#8, 0#8⟩

/-! ### OPEN parameters (R10): a proof holds for every value -/

/-- Whether TRAD_TABLE rises with its index; the source does not say (R215). -/
opaque tradRises : Bool

/-- The raw material of TRAD_TABLE's entries (R85, D15). -/
opaque tradEntry : Nat → Nat

/-- A rising table with entries in 0..12: the running maximum of the clipped raw entries. Every rising table of the
range arises (from its own entries), and nothing else does. -/
def tradRising : Nat → Nat
  | 0 => min (tradEntry 0) tradMax
  | r + 1 => max (tradRising r) (min (tradEntry (r + 1)) tradMax)

/-- TRAD_TABLE[r], r in 0..133: monotonic in one direction, every entry in 0..12 (R85, R215). -/
def tradTable (r : Nat) : Nat := if tradRises then tradRising r else tradRising (tradRev - r)

/-- LOG_TABLE[i], i in 0..127 (R86, D24). -/
opaque logTable : BitVec 7 → Byte

/-- SOLID_RED_RGB (D26). -/
opaque solidRed : Rgb
/-- SOLID_GREEN_RGB (D26). -/
opaque solidGreen : Rgb
/-- SOLID_BLUE_RGB (D26). -/
opaque solidBlue : Rgb
/-- SOLID_WHITE_RGB (D26). -/
opaque solidWhite : Rgb
/-- BATT_GREEN_RGB (D26). -/
opaque battGreen : Rgb
/-- BATT_YELLOW_RGB (D26). -/
opaque battYellow : Rgb
/-- BATT_RED_RGB (D26). -/
opaque battRed : Rgb
/-- FLASH_RGB (D26). -/
opaque flash : Rgb

/-- PULSE_MAX less 1, so that PULSE_MAX is any value in 1..255 (D26). -/
opaque pulseMaxLess1 : Fin 255

/-- PULSE_MAX, 1..255 (D26). -/
def pulseMax : Nat := pulseMaxLess1.val + 1

/-- NV_BASE, the platform address of slot 0 (R80, D35). -/
opaque nvBase : Nat

/-- The platform address of a slot (R80). -/
def nvAddress (a : BitVec 9) : Nat := nvBase + a.toNat

/-- ADC_CH_RVC, ADC_CH_AUDIO, ADC_CH_BATT: the platform's number of a channel on the 2-bit adc_ch port (R10, R70, D36). -/
opaque adcChannel : Channel → BitVec 2

/-- T_ADC, T_NVR, T_NVW, T_NVE in nanoseconds; no rule depends on one (R371, I20). -/
opaque tAdc : Nat
/-- See `tAdc`. -/
opaque tNvr : Nat
/-- See `tAdc`. -/
opaque tNvw : Nat
/-- See `tAdc`. -/
opaque tNve : Nat

/-! ### Free draws (R22): what an input answers when no value is scripted for it in the state -/

/-- A switch level, by the switch and the number of draws taken before. -/
opaque freeLevel : SwitchId → Nat → Bool
/-- A sensor reading. -/
opaque freeReading : Channel → Nat → Byte
/-- The `ok` result of an NV access. -/
opaque freeOk : Nat → Bool
/-- What a failed NV write or erase leaves in a slot (R82, R83). -/
opaque freeSlot : Nat → Byte
/-- The attenuator device's register at power-up (I18). -/
opaque deviceAtPowerUp : Byte

/-- The reading BATT holds where a command word is placed in a state whose reset sequence was pending: any byte, as the sequence's
battery sample may read (R361, R22; log entry 2). -/
opaque battWhenPlaced : Byte
/-- What the attenuator device's register holds after a frame whose level is above 64 (R226, I14). -/
opaque deviceAbove64 : Byte → Byte

end Config

end Sys2Proof
end

