-- ==== Sys2Proof/Machine/State.lean ====
section
/-! DEFINITION. The state of LBM-CORE (R30): every named register SR0..SR32 of R58, the external memories of R56
(the preference sector and the attenuator device's register), the port inputs of R70, the trace of the running
operation (R21), and the two ways an operation can stop. -/

namespace Sys2Proof.Machine

/-! ### Enumerations held in registers -/

/-- RvcMode, 1 bit (R122): the constructors in the order of their codes 0, 1. -/
inductive RvcMode where
  | defaultWithMute
  | traditionalCurve
  deriving DecidableEq, Repr

/-- LedMode, 3 bits (R123): the constructors in the order of their codes 0..7. -/
inductive LedMode where
  | batteryMonitor
  | vuMeter
  | solidRed
  | solidGreen
  | solidBlue
  | solidWhite
  | editSw1
  | editSw2
  deriving DecidableEq, Repr

/-- OverrideAnimation state, 3 bits (R124): codes 0..4; 5..7 never occur. -/
inductive OvrState where
  | idle
  | initialPause
  | flashOn
  | flashOff
  | finalPause
  deriving DecidableEq, Repr

/-- PULSE_DIR, 1 bit (R46): 0 = rising, 1 = falling. -/
inductive PulseDir where
  | rising
  | falling
  deriving DecidableEq, Repr

/-- Battery class, 2 bits (R126), never stored. -/
inductive BattClass where
  | green
  | yellow
  | red
  | low
  deriving DecidableEq, Repr

/-! ### The trace (R21) -/

/-- The duration of a `Delay` request (R15, R224, R200). -/
inductive Wait where
  /-- T_SU, data setup before a rising clock edge. -/
  | setup
  /-- T_H, data hold after it. -/
  | hold
  /-- STEP_DELAY, between two frames of a ramp. -/
  | step
  deriving DecidableEq, Repr

/-- An error condition recorded in the trace (R331, codes 1 to 3). -/
inductive Condition where
  | nvReadFail (a : BitVec 9)
  | nvWriteFail (a : BitVec 9)
  | nvEraseFail
  deriving DecidableEq, Repr

/-- A port event (R21). Levels and `ok` are `true` for 1. -/
inductive Event where
  /-- ADC(ch, value). -/
  | adc (ch : Channel) (value : Byte)
  /-- PIN(s, level). -/
  | pin (s : SwitchId) (level : Bool)
  /-- NVR(a, 1, value) as `some value`; NVR(a, 0, ·) as `none`, since the byte then carries no value (R81). -/
  | nvr (a : BitVec 9) (value : Option Byte)
  /-- NVW(a, v, ok). -/
  | nvw (a : BitVec 9) (v : Byte) (ok : Bool)
  /-- NVE(ok). -/
  | nve (ok : Bool)
  /-- PWM(r, g, b). -/
  | pwm (c : Rgb)
  /-- SER(clk, data, load). -/
  | ser (clk data load : Bool)
  /-- DELAY(d). -/
  | delay (d : Wait)
  /-- ATT(level), one per completed frame. -/
  | att (level : Byte)
  /-- EV(s, PRESS | RELEASE). -/
  | ev (s : SwitchId) (e : Edge)
  /-- ERR(condition). -/
  | err (c : Condition)
  deriving DecidableEq, Repr

/-! ### Parts of the state -/

/-- The three debouncer registers of one switch: SW_RAW, SW_DEB (1 = released = `true`) and SW_CNT (R35 to R37). -/
structure SwitchRegs where
  raw : Bool
  deb : Bool
  cnt : BitVec 3
  deriving DecidableEq, Repr

/-- The external attenuator device (R56 item 2, R226): the bits it has sampled, latest in bit 0, and its register. -/
structure AttDevice where
  shift : BitVec 16
  reg : Byte
  deriving DecidableEq, Repr

/-- The preference sector as (slot, byte) pairs (R80, R87). Canonical form: `Memory.wf`. -/
abbrev Memory := List Host.Cell

/-- What a slot with no entry reads as: erased. -/
abbrev Memory.unlisted : Byte := Config.erasedByte

/-- Strictly rising slots from `lo` on, all below 512, and no entry equal to what an unlisted slot reads as. -/
def Memory.wfFrom (lo : Nat) : Memory → Bool
  | [] => true
  | (a, v) :: m => decide (lo ≤ a) && decide (a < Config.nvSlots) && (v != Memory.unlisted) && Memory.wfFrom (a + 1) m

/-- The canonical form of a sector: equal sectors are equal lists. -/
def Memory.wf (m : Memory) : Bool := Memory.wfFrom 0 m

/-- What the platform asks of the block (R70 ports rst, tick and cmd). -/
inductive Request where
  /-- `rst` asserted between operations (R360, R364). -/
  | rst
  /-- `tick` asserted (R340). -/
  | tick
  /-- `cmd_valid` with a word on `cmd` (R120). -/
  | cmd (w : Word)
  deriving DecidableEq, Repr

/-- The input values the environment has ready, in the order they will be drawn (R22, R167): any finite sequence of
inputs is some value of these lists. A list that is used up goes on with the opaque draws of Config, numbered by
`drawn`. -/
structure Inputs where
  /-- Raw levels of switch 0. -/
  sw0 : List Bool
  /-- Raw levels of switch 1. -/
  sw1 : List Bool
  /-- RVC readings; `none` is a conversion that never completes (R333). -/
  rvc : List (Option Byte)
  /-- AUDIO readings. -/
  audio : List (Option Byte)
  /-- BATT readings. -/
  batt : List (Option Byte)
  /-- `ok` results of NV accesses. -/
  nvOk : List Bool
  /-- What failed NV writes and erases leave in the slots they hit (R82, R83). -/
  nvLeft : List Byte
  /-- How many free draws were taken. -/
  drawn : Nat
  deriving DecidableEq, Repr

/-- The state of LBM-CORE. -/
@[ext]
structure State where
  /-- SR0 TC (R34). -/
  tc : BitVec 7
  /-- SR1 to SR3: SW_RAW[0], SW_DEB[0], SW_CNT[0] (R35 to R37). -/
  sw0 : SwitchRegs
  /-- SR4 to SR6: SW_RAW[1], SW_DEB[1], SW_CNT[1]. -/
  sw1 : SwitchRegs
  /-- SR7 LEDMODE (R38). -/
  ledMode : LedMode
  /-- SR8 RVCMODE (R39). -/
  rvcMode : RvcMode
  /-- SR9 ATT_PREV (R40). -/
  attPrev : BitVec 7
  /-- SR10 ATT_CUR, 0..255 or ⊥ = `none`, both among the legal values R58 gives it (R41, R49). -/
  attCur : Option Byte
  /-- SR11 VU_STATE, 8.8 fixed point (R42). -/
  vuState : BitVec 16
  /-- SR12 to SR15 VU_WIN[0..3] (R43). -/
  vuWin : Vector Byte 4
  /-- SR16 VU_WP (R44). -/
  vuWp : BitVec 2
  /-- SR17 BATT, 0..255 or ⊥ = `none`, both among the legal values R58 gives it (R45, R49). -/
  batt : Option Byte
  /-- SR18 PULSE_LVL (R46). -/
  pulseLvl : Byte
  /-- SR19 PULSE_DIR (R46). -/
  pulseDir : PulseDir
  /-- SR20 OVR_STATE (R47). -/
  ovrState : OvrState
  /-- SR21 OVR_CNT (R47). -/
  ovrCnt : BitVec 4
  /-- SR22 OVR_IDX (R47). -/
  ovrIdx : BitVec 2
  /-- SR23 OVR_N (R47). -/
  ovrN : BitVec 2
  /-- SR24 to SR26 PWM_R, PWM_G, PWM_B (R48). -/
  pwm : Rgb
  /-- SR27 ATT_CLK (R50). -/
  attClk : Bool
  /-- SR28 ATT_DATA (R50). -/
  attData : Bool
  /-- SR29 ATT_LOAD (R50). -/
  attLoad : Bool
  /-- SR30 PREF_CUR (R51). -/
  prefCur : BitVec 10
  /-- SR31 PREF_INIT (R52). -/
  prefInit : Bool
  /-- SR32 PREF_EFF (R53). -/
  prefEff : Byte
  /-- The preference sector (R56 item 1, R80). -/
  sector : Memory
  /-- The external attenuator device (R56 item 2, R226). -/
  device : AttDevice
  /-- The reset sequence has yet to run after a register reset, before the first tick or command word (R361, I17). -/
  resetPending : Bool
  /-- Requests the platform has made and the block has not yet taken. -/
  requests : List Request
  /-- The inputs the environment has ready (R22). -/
  inputs : Inputs
  /-- The events of the operation running or last run, in order (R21). -/
  trace : List Event
  deriving DecidableEq, Repr

/-- Why an operation has no next state. -/
inductive Fault where
  /-- SENSOR_HANG, code 4 (R331, R333, R336): raised by every `AdcRead` (RVCUPD, VUSAMP, BATSAMP, the TICK and the
  reset sequence that call them) whose conversion never completes. The stuck outcome of the spec: safe, since
  the hardware has no next state either. -/
  | sensorHang (ch : Channel)
  /-- Reading BATT while it is ⊥ (R16, R49, R240, and the treatment `fault` of I17): raised by RENDER. The spec's own model fault, on the
  reset value the spec itself gives BATT (R58, R360): safe. The reset sequence gives BATT a value before the first operation (R361), so no
  run from reset comes to it, as I17 says. -/
  | battNoValue
  deriving DecidableEq, Repr

/-- Why a command is given no meaning. -/
inductive Refusal where
  /-- An instruction with no meaning yet: raised by no arm of this model. Safe. -/
  | notModelled (mnemonic : String)
  /-- A reserved command word (R130, R338): raised by the step that takes it. Safe, the spec's own refusal. -/
  | reservedCommand (why : Reserved) (w : Word)
  deriving DecidableEq, Repr

/-- The machine right after power-up reset: every register at its register-reset value (R58, R360), the reset sequence
still to run (R361), no request and no input scripted. The sector (not touched by reset) lists nothing. -/
def State.reset : State where
  tc := 0#7
  sw0 := ⟨true, true, 0#3⟩
  sw1 := ⟨true, true, 0#3⟩
  ledMode := .batteryMonitor
  rvcMode := .defaultWithMute
  attPrev := 0#7
  attCur := none
  vuState := 0#16
  vuWin := #v[0#8, 0#8, 0#8, 0#8]
  vuWp := 0#2
  batt := none
  pulseLvl := 0#8
  pulseDir := .rising
  ovrState := .idle
  ovrCnt := 0#4
  ovrIdx := 0#2
  ovrN := 0#2
  pwm := ⟨0#8, 0#8, 0#8⟩
  attClk := false
  attData := true
  attLoad := true
  prefCur := 0#10
  prefInit := false
  prefEff := 0x00#8
  sector := []
  device := ⟨0#16, Config.deviceAtPowerUp⟩
  resetPending := true
  requests := []
  inputs := ⟨[], [], [], [], [], [], [], 0⟩
  trace := []

end Sys2Proof.Machine
end

