-- ==== Sys2Proof/Machine/Ops.lean ====
section
/-! DEFINITION. The operations every meaning is written over: sequencing, the trace, the input draws, the sector, the
port primitives of R15, and `raise`, which is all LBM-CORE has of an exception (R16, R330, R332). -/

namespace Sys2Proof.Machine

/-- What an operation answers. -/
abbrev Result := Host.Outcome State Fault Refusal

/-- Run `f` on the state `r` leaves; a stop of `r` stops both (`call` inside an operation, R17). -/
def andThen (r : Result) (f : State → Result) : Result :=
  match r with
  | .next s => f s
  | .fault e => .fault e
  | .refused e => .refused e

/-- Append events to the trace of the running operation (R21). -/
def emit (es : List Event) (s : State) : State := { s with trace := s.trace ++ es }

/-- Replace the inputs, after a draw. -/
def withInputs (p : Inputs) (s : State) : State := { s with inputs := p }

/-- Replace the sector. -/
def withSector (m : Memory) (s : State) : State := { s with sector := m }

/-- ATT_CUR <- level (R41). -/
def setAttCur (level : Byte) (s : State) : State := { s with attCur := some level }

/-- ATT_PREV <- goal, 7 bits (R40). -/
def setAttPrev (goal : Nat) (s : State) : State := { s with attPrev := BitVec.ofNat 7 goal }

/-- BATT <- b (R45). -/
def setBatt (b : Byte) (s : State) : State := { s with batt := some b }

/-- PREF_CUR, PREF_EFF and PREF_INIT = 1 once the log is known (R301, R302). -/
def prefFound (cur : BitVec 10) (eff : Byte) (s : State) : State :=
  { s with prefCur := cur, prefEff := eff, prefInit := true }

/-- PREF_CUR and PREF_EFF after an append (R303). -/
def prefAppended (cur : BitVec 10) (eff : Byte) (s : State) : State := { s with prefCur := cur, prefEff := eff }

/-! ### Draws (R22) -/

/-- The next raw level of a switch. -/
def nextLevel (sw : SwitchId) (p : Inputs) : Bool × Inputs :=
  match sw with
  | .sw0 =>
    match p.sw0 with
    | b :: bs => (b, { p with sw0 := bs })
    | [] => (Config.freeLevel .sw0 p.drawn, { p with drawn := p.drawn + 1 })
  | .sw1 =>
    match p.sw1 with
    | b :: bs => (b, { p with sw1 := bs })
    | [] => (Config.freeLevel .sw1 p.drawn, { p with drawn := p.drawn + 1 })

/-- The next reading of a sensor; `none` when its conversion never completes (R333). -/
def nextReading (ch : Channel) (p : Inputs) : Option Byte × Inputs :=
  match ch with
  | .rvc =>
    match p.rvc with
    | b :: bs => (b, { p with rvc := bs })
    | [] => (some (Config.freeReading .rvc p.drawn), { p with drawn := p.drawn + 1 })
  | .audio =>
    match p.audio with
    | b :: bs => (b, { p with audio := bs })
    | [] => (some (Config.freeReading .audio p.drawn), { p with drawn := p.drawn + 1 })
  | .batt =>
    match p.batt with
    | b :: bs => (b, { p with batt := bs })
    | [] => (some (Config.freeReading .batt p.drawn), { p with drawn := p.drawn + 1 })

/-- The `ok` result of the next NV access. -/
def nextOk (p : Inputs) : Bool × Inputs :=
  match p.nvOk with
  | b :: bs => (b, { p with nvOk := bs })
  | [] => (Config.freeOk p.drawn, { p with drawn := p.drawn + 1 })

/-- What a failed NV access leaves in the next slot it hits (R82, R83). -/
def nextLeft (p : Inputs) : Byte × Inputs :=
  match p.nvLeft with
  | b :: bs => (b, { p with nvLeft := bs })
  | [] => (Config.freeSlot p.drawn, { p with drawn := p.drawn + 1 })

/-! ### The sector (R80 to R83) -/

/-- The content of slot `a`. -/
def Memory.get : Memory → Nat → Byte
  | [], _ => Memory.unlisted
  | (b, v) :: m, a => if a = b then v else Memory.get m a

/-- Set slot `a`, keeping the canonical form. -/
def Memory.set : Memory → Nat → Byte → Memory
  | [], a, v => if v = Memory.unlisted then [] else [(a, v)]
  | (b, x) :: m, a, v =>
    if a < b then (if v = Memory.unlisted then (b, x) :: m else (a, v) :: (b, x) :: m)
    else if a = b then (if v = Memory.unlisted then m else (a, v) :: m)
    else (b, x) :: Memory.set m a v

/-- `n` slots from `a` on, each holding a drawn byte: the sector a failed erase leaves (R83). -/
def drawnSlots (a : Nat) : Nat → Inputs → Memory × Inputs
  | 0, p => ([], p)
  | n + 1, p =>
    let v := (nextLeft p).1
    let rest := drawnSlots (a + 1) n (nextLeft p).2
    (if v = Memory.unlisted then rest.1 else (a, v) :: rest.1, rest.2)

/-- The byte a write of `v` leaves in a slot that held `old`, by NV_PROGRAM (R82). -/
def programmed (law : NvProgram) (old v : Byte) : Byte :=
  match law with
  | .replace => v
  | .clearOnly => old &&& v

/-! ### Port primitives (R15) -/

/-- `AdcRead(ch)`: one conversion, one ADC event; stuck when it never completes (R92, R333). -/
def adcRead (ch : Channel) (s : State) : Except Fault (Byte × State) :=
  match (nextReading ch s.inputs).1 with
  | none => .error (.sensorHang ch)
  | some b => .ok (b, emit [.adc ch b] (withInputs (nextReading ch s.inputs).2 s))

/-- `n` consecutive conversions of one channel, the readings in order (R270). -/
def adcReads (ch : Channel) : Nat → State → Except Fault (List Byte × State)
  | 0, s => .ok ([], s)
  | n + 1, s =>
    match adcRead ch s with
    | .error e => .error e
    | .ok (b, s1) =>
      match adcReads ch n s1 with
      | .error e => .error e
      | .ok (bs, s2) => .ok (b :: bs, s2)

/-- `PinRead(s)`: the raw level of a switch, one PIN event. -/
def pinRead (sw : SwitchId) (s : State) : Bool × State :=
  let d := nextLevel sw s.inputs
  (d.1, emit [.pin sw d.1] (withInputs d.2 s))

/-- `NvRead(a)`: the slot's content when ok = 1, no value when ok = 0 (R81). -/
def nvRead (a : BitVec 9) (s : State) : Option Byte × State :=
  let d := nextOk s.inputs
  let v := if d.1 then some (Memory.get s.sector a.toNat) else none
  (v, emit [.nvr a v] (withInputs d.2 s))

/-- `NvWrite(a, v)`: the slot programmed when ok = 1, left with any byte when ok = 0 (R82). -/
def nvWrite (a : BitVec 9) (v : Byte) (s : State) : Bool × State :=
  let d := nextOk s.inputs
  let l := nextLeft d.2
  if d.1 then
    (true, emit [.nvw a v true]
      (withSector (Memory.set s.sector a.toNat
        (programmed Config.nvProgram (Memory.get s.sector a.toNat) v)) (withInputs d.2 s)))
  else
    (false, emit [.nvw a v false]
      (withSector (Memory.set s.sector a.toNat l.1) (withInputs l.2 s)))

/-- `NvErase()`: every slot erased when ok = 1, left with any byte when ok = 0 (R83). -/
def nvErase (s : State) : Bool × State :=
  let d := nextOk s.inputs
  let l := drawnSlots 0 Config.nvSlots d.2
  if d.1 then (true, emit [.nve true] (withSector [] (withInputs d.2 s)))
  else (false, emit [.nve false] (withSector l.1 (withInputs l.2 s)))

/-- `PwmWrite(r, g, b)`: sets the three duty registers, one PWM event (R48, D28). -/
def pwmWrite (c : Rgb) (s : State) : State := emit [.pwm c] { s with pwm := c }

/-- The attenuator device's register after it takes a frame of `level`: the level in 0..64, a free value above (R226, I14). -/
def deviceTakes (level : Byte) : Byte :=
  if level.toNat ≤ Config.attMax then level else Config.deviceAbove64 level

/-- What the attenuator device does when its lines go from (clk0, ·, load0) to (clk, data, load): it samples data on a rising
clock edge and takes the frame when load rises (R226). -/
def deviceSees (clk0 load0 clk data load : Bool) (d : AttDevice) : AttDevice :=
  let sampled := if !clk0 && clk then { d with shift := (d.shift <<< 1) ||| (BitVec.ofBool data).setWidth 16 } else d
  if !load0 && load then { sampled with reg := deviceTakes (sampled.shift.setWidth 8) } else sampled

/-- `Pins(clk, data, load)`: drives the three serial lines, one SER event (R224); the device at their end sees the change. -/
def pins (clk data load : Bool) (s : State) : State :=
  emit [.ser clk data load]
    { s with
      attClk := clk, attData := data, attLoad := load
      device := deviceSees s.attClk s.attLoad clk data load s.device }

/-- `Delay(d)`: an event and nothing else (R372). -/
def delay (d : Wait) (s : State) : State := emit [.delay d] s

/-- The least time a `Delay` asks of the platform, in nanoseconds (R225, R200, R373). -/
def waitNs : Wait → Nat
  | .setup => Config.tSuNs
  | .hold => Config.tHNs
  | .step => Config.stepDelayNs

/-- `raise`: the error condition is recorded in the trace and PREF_INIT is cleared; control goes on in line, for LBM-CORE
has no trap (R16, R306, R332). -/
def raiseNv (c : Condition) (s : State) : State := emit [.err c] { s with prefInit := false }

/-- The code of an error condition (R331). -/
def conditionCode : Condition → Nat
  | .nvReadFail _ => 1
  | .nvWriteFail _ => 2
  | .nvEraseFail => 3

end Sys2Proof.Machine
end

