-- ==== Sys2Proof/Machine/Operands.lean ====
section
/-! DEFINITION. The operand forms: the registers indexed by a switch (SW_RAW[s], SW_DEB[s], SW_CNT[s]) or by a window
slot (VU_WIN[i]), the codes of the enumerated registers (R122 to R124, R126), and the preference record byte
(R127, R128, R136). -/

namespace Sys2Proof.Machine

/-! ### Indexed registers -/

/-- The debouncer registers of switch `s` (R14, R35 to R37). -/
def switchRegs (sw : SwitchId) (s : State) : SwitchRegs :=
  match sw with
  | .sw0 => s.sw0
  | .sw1 => s.sw1

/-- Write the debouncer registers of switch `s`. -/
def setSwitchRegs (sw : SwitchId) (r : SwitchRegs) (s : State) : State :=
  match sw with
  | .sw0 => { s with sw0 := r }
  | .sw1 => { s with sw1 := r }

/-- VU_WIN[i] <- v (R43). -/
def setVuWin (i : BitVec 2) (v : Byte) (w : Vector Byte 4) : Vector Byte 4 :=
  w.set i.toNat v i.isLt

/-! ### Codes of the enumerations -/

/-- The code of an LedMode (R123). -/
def ledCode : LedMode → BitVec 3
  | .batteryMonitor => 0#3
  | .vuMeter => 1#3
  | .solidRed => 2#3
  | .solidGreen => 3#3
  | .solidBlue => 4#3
  | .solidWhite => 5#3
  | .editSw1 => 6#3
  | .editSw2 => 7#3

/-- The LedMode of a code; all eight are legal (R38, R123). -/
def ledOfCode (c : BitVec 3) : LedMode :=
  match c.toNat with
  | 0 => .batteryMonitor
  | 1 => .vuMeter
  | 2 => .solidRed
  | 3 => .solidGreen
  | 4 => .solidBlue
  | 5 => .solidWhite
  | 6 => .editSw1
  | _ => .editSw2

/-- The code of an RvcMode (R122). -/
def rvcCode : RvcMode → BitVec 1
  | .defaultWithMute => 0#1
  | .traditionalCurve => 1#1

/-- The RvcMode of a code (R122). -/
def rvcOfCode (c : BitVec 1) : RvcMode := if c = 0#1 then .defaultWithMute else .traditionalCurve

/-- The code of an override state (R124). -/
def ovrCode : OvrState → BitVec 3
  | .idle => 0#3
  | .initialPause => 1#3
  | .flashOn => 2#3
  | .flashOff => 3#3
  | .finalPause => 4#3

/-- The code of a battery class (R126). -/
def battCode : BattClass → BitVec 2
  | .green => 0#2
  | .yellow => 1#2
  | .red => 2#2
  | .low => 3#2

/-! ### The preference record -/

/-- The byte is a record: validMarker, bit 7, is 0 (R127, R300). -/
def isRecord (b : Byte) : Bool := !b.getLsbD 7

/-- `rec = (RVCMODE << 3) | (LEDMODE[1:0] << 1)`; LEDMODE bit 2 is dropped (R128, D11). -/
def encodeRecord (r : RvcMode) (l : LedMode) : Byte :=
  ((rvcCode r).setWidth 8 <<< 3) ||| (((ledCode l).setWidth 2).setWidth 8 <<< 1)

/-- LEDMODE restored from a record: zext_3(r[2:1]) (R136). -/
def recordLed (b : Byte) : LedMode := ledOfCode ((b.extractLsb' 1 2).setWidth 3)

/-- RVCMODE restored from a record: r[3] (R136). -/
def recordRvc (b : Byte) : RvcMode := rvcOfCode (b.extractLsb' 3 1)

end Sys2Proof.Machine
end

