-- ==== Sys2Proof/Machine/Flags.lean ====
section
/-! DEFINITION. LBM-CORE has no flags, condition codes or predicates (R32): no operation writes one. The two status bits it has
are ordinary registers; this file names their tests. -/

namespace Sys2Proof.Machine

/-- An override animation is active: OVR_STATE is not Idle (R32, R47). -/
def overrideActive (s : State) : Bool := decide (s.ovrState ≠ .idle)

/-- PREF_CUR and PREF_EFF agree with the sector: PREF_INIT = 1 (R32, R52). -/
def prefReady (s : State) : Bool := s.prefInit

end Sys2Proof.Machine
end

