-- ==== Sys2Proof/Machine/Attenuation.lean ====
section
/-! DEFINITION. The attenuation-curve mapper, the 1-unit ramp and the serialiser: RVCUPD and STEPSET (R200 to R226). -/

namespace Sys2Proof.Machine

/-! ### The curves -/

/-- `clip(v, lo, hi)` (R12). -/
def clip (v lo hi : Nat) : Nat := min (max v lo) hi

/-- linearPotVal of a raw reading in 0..224 (R211). -/
def linearPotVal (raw : Nat) : Nat := clip (raw * 255 / (255 - raw)) 0 255

/-- DefaultWithMute as a function of linearPotVal, the tests in the order written (R211). -/
def dwmOfLpv (lpv : Nat) : Nat :=
  if lpv < Config.curveE then 0
  else if lpv > Config.curveD then Config.attMax
  else if lpv ≤ Config.curveA then (lpv - Config.curveE) * Config.curveB / Config.curveA
  else Config.curveB + (lpv - Config.curveA) * (Config.curveC - Config.curveB) / (Config.curveD - Config.curveA)

/-- DWM(raw), raw in 0..224 (R211). -/
def dwm (raw : Nat) : Nat := dwmOfLpv (linearPotVal raw)

/-- TRAD(raw), raw in 0..224 (R212). -/
def trad (raw : Nat) : Nat := Config.tradTable (Config.tradRev - min raw Config.tradRev)

/-- TARGET(raw, mode), in 0..64 (R201, R210). -/
def target (raw : Byte) (mode : RvcMode) : Nat :=
  if raw.toNat > Config.rvcOpen then 0
  else match mode with
    | .defaultWithMute => dwm raw.toNat
    | .traditionalCurve => trad raw.toNat

/-! ### The serialiser -/

/-- One bit of a frame: data set while the clock is low, raised, lowered (R224). -/
def serialBit (b : Bool) (s : State) : State :=
  pins false b false (delay .hold (pins true b false (delay .setup (pins false b false s))))

/-- The low `n` bits of `w`, the highest of them first (R129, R224). -/
def serialBits (w : Word) : Nat → State → State
  | 0, s => s
  | n + 1, s => serialBits w n (serialBit (w.getLsbD n) s)

/-- SERIAL_FRAME(w) (R224). -/
def serialFrame (w : Word) (s : State) : State :=
  pins false true true (pins false (w.getLsbD 0) true (serialBits w 16 (pins false s.attData false s)))

/-- The frame of a level: the address field, then the level (R129). -/
def frameWord (level : Byte) : Word := Config.addrField ++ level

/-- STEPSET(level) (R220). -/
def stepSet (level : Byte) (s : State) : State :=
  emit [.att level] (setAttCur level (serialFrame (frameWord level) s))

/-! ### The ramp -/

/-- The levels a ramp visits from `lvl` to `goal`, the start left out: the `while` of R200, at most `fuel` turns. -/
def rampLevels (goal : Nat) : Nat → Nat → List Nat
  | 0, _ => []
  | fuel + 1, lvl =>
    if lvl = goal then []
    else
      let lvl' := if goal > lvl then lvl + 1 else lvl - 1
      lvl' :: rampLevels goal fuel lvl'

/-- The distance a ramp covers, so the number of its frames (R200). -/
def distance (a b : Nat) : Nat := (a - b) + (b - a)

/-- Send the frames, a STEP_DELAY between consecutive ones (R200, D17). -/
def sendFrames : Bool → List Nat → State → State
  | _, [], s => s
  | first, l :: ls, s =>
    sendFrames false ls (stepSet (BitVec.ofNat 8 l) (if first then s else delay .step s))

/-- The frames of an update: one at the target when forced, else the ramp from ATT_PREV (R200, D16). -/
def sendUpdate (force : Bool) (goal : Nat) (s : State) : State :=
  if force then stepSet (BitVec.ofNat 8 goal) s
  else sendFrames true (rampLevels goal (distance s.attPrev.toNat goal) s.attPrev.toNat) s

/-- RVCUPD(force) (R200). -/
def rvcUpdate (force : Bool) (s : State) : Result :=
  match adcRead .rvc s with
  | .error e => .fault e
  | .ok (raw, s1) =>
    let goal := target raw s1.rvcMode
    .next (setAttPrev goal (sendUpdate force goal s1))

/-- The meaning of RVCUPD (R200). -/
def execRvcupd (force : Bool) (s : State) : Result := rvcUpdate force s

/-- The meaning of STEPSET: any byte is sent as given (R220, D41). -/
def execStepset (level : Byte) (s : State) : Result := .next (stepSet level s)

end Sys2Proof.Machine
end

