-- ==== Sys2Proof/Machine/Battery.lean ====
section
/-! DEFINITION. The battery watermark classifier: BATSAMP and CLASS (R290 to R292). -/

namespace Sys2Proof.Machine

/-- CLASS(b) (R291). -/
def battClass (b : Byte) : BattClass :=
  if b.toNat ≥ Config.battG then .green
  else if b.toNat ≥ Config.battY then .yellow
  else if b.toNat ≥ Config.battR then .red
  else .low

/-- BATSAMP (R290). -/
def batSample (s : State) : Result :=
  match adcRead .batt s with
  | .error e => .fault e
  | .ok (b, s1) => .next (setBatt b s1)

/-- The meaning of BATSAMP (R290). -/
def execBatsamp (s : State) : Result := batSample s

end Sys2Proof.Machine
end

