-- ==== Sys2Proof/Machine/Vu.lean ====
section
/-! DEFINITION. The VU envelope detector and its colour map: VUSAMP (R270 to R277). -/

namespace Sys2Proof.Machine

/-- abs(s − VU_MID) of one reading, in 0..128 (R270, R272). -/
def deviation (b : Byte) : Nat := (b.toNat - Config.vuMid) + (Config.vuMid - b.toNat)

/-- The peak of a sample's readings (R270). -/
def peakOf (bs : List Byte) : Nat := bs.foldl (fun p b => max p (deviation b)) 0

/-- The largest of the four window slots (R270). -/
def windowMax (w : Vector Byte 4) : Nat :=
  max (max w[0].toNat w[1].toNat) (max w[2].toNat w[3].toNat)

/-- VU_DECAY(v), the ×15/16 of R271 (D21). -/
def vuDecay (v : Nat) : Nat := v * 15 / 16

/-- SMOOTH(v, sig): fast attack, slow decay, floor to 0 below 1.0 (R271). -/
def smooth (v sig : Nat) : Nat :=
  if sig * 256 ≥ v then sig * 256
  else if vuDecay v < 256 then 0
  else vuDecay v

/-- VU_INDEX(v), rounded half up and clamped (R274). -/
def vuIndex (v : Nat) : Nat := min ((v + 128) / 256) Config.vuIdxMax

/-- VU_COLOR(b), three linear zones (R276, D25). -/
def vuColor (b : Byte) : Rgb :=
  let n := b.toNat
  if n ≤ 191 then ⟨0#8, BitVec.ofNat 8 (n * 33 / 191), 0#8⟩
  else if n ≤ 223 then ⟨BitVec.ofNat 8 ((n - 192) * 50 / 31), BitVec.ofNat 8 (33 + (n - 192) * 7 / 31), 0#8⟩
  else ⟨BitVec.ofNat 8 (100 + (n - 224) * 155 / 31), 0#8, 0#8⟩

/-- The colour RENDER shows in VuMeter mode (R275). -/
def vuDisplay (v : BitVec 16) : Rgb := vuColor (Config.logTable (BitVec.ofNat 7 (vuIndex v.toNat)))

/-- What VUSAMP does with its 20 readings: the window slot, the pointer, the smoothed value (R270). -/
def vuTake (bs : List Byte) (s : State) : State :=
  let win := setVuWin s.vuWp (BitVec.ofNat 8 (peakOf bs)) s.vuWin
  { s with
    vuWin := win
    vuWp := s.vuWp + 1#2
    vuState := BitVec.ofNat 16 (smooth s.vuState.toNat (windowMax win)) }

/-- VUSAMP (R270). -/
def vuSample (s : State) : Result :=
  match adcReads .audio Config.vuReads s with
  | .error e => .fault e
  | .ok (bs, s1) => .next (vuTake bs s1)

/-- The meaning of VUSAMP (R270). -/
def execVusamp (s : State) : Result := vuSample s

end Sys2Proof.Machine
end

