-- ==== Sys2Proof/Machine/Display.lean ====
section
/-! DEFINITION. The LED display controller: RENDER with its pulse generator and override animation, and OVRSTART
(R240 to R253). -/

namespace Sys2Proof.Machine

/-! ### The pulse generator -/

/-- PULSE_STEP on (PULSE_LVL, PULSE_DIR) for a given PULSE_MAX: step, saturate and reverse at the bounds (R245). -/
def pulseNext (pulseMax : Nat) (lvl : Byte) (dir : PulseDir) : Byte × PulseDir :=
  match dir with
  | .rising =>
    if lvl.toNat + Config.pulseStepSize ≥ pulseMax then (BitVec.ofNat 8 pulseMax, .falling)
    else (BitVec.ofNat 8 (lvl.toNat + Config.pulseStepSize), .rising)
  | .falling =>
    if lvl.toNat ≤ Config.pulseStepSize then (0#8, .rising)
    else (BitVec.ofNat 8 (lvl.toNat - Config.pulseStepSize), .falling)

/-- PULSE_STEP (R245). -/
def pulseStep (s : State) : State :=
  let n := pulseNext Config.pulseMax s.pulseLvl s.pulseDir
  { s with pulseLvl := n.1, pulseDir := n.2 }

/-- PULSE_STEP, then PwmWrite(PULSE_LVL, 0, 0) (R240). -/
def showPulse (s : State) : State :=
  let s1 := pulseStep s
  pwmWrite ⟨s1.pulseLvl, 0#8, 0#8⟩ s1

/-! ### The override animation -/

/-- DUR of an override state, in renders (R124, R251); Idle has none. -/
def ovrDuration : OvrState → Nat
  | .idle => 0
  | .initialPause => Config.ovrIp
  | .flashOn => Config.ovrOn
  | .flashOff => Config.ovrOff
  | .finalPause => Config.ovrFp

/-- The colour an override state shows (R251). -/
def ovrColor (o : OvrState) : Rgb := if o = .flashOn then Config.flash else Config.off

/-- The change of state when OVR_CNT reaches the duration: OVR_CNT <- 0 and the next OVR_STATE (R251). -/
def ovrAdvance (s : State) : State :=
  match s.ovrState with
  | .idle => s
  | .initialPause => { s with ovrCnt := 0#4, ovrState := .flashOn }
  | .flashOn => { s with ovrCnt := 0#4, ovrState := .flashOff }
  | .flashOff =>
    { s with
      ovrCnt := 0#4
      ovrIdx := s.ovrIdx + 1#2
      ovrState := if s.ovrIdx + 1#2 < s.ovrN then .flashOn else .finalPause }
  | .finalPause => { s with ovrCnt := 0#4, ovrState := .idle }

/-- OVERRIDE_STEP: show, count, and leave the state when its duration is reached (R251, D29). -/
def overrideStep (s : State) : State :=
  let s1 := pwmWrite (ovrColor s.ovrState) s
  let s2 := { s1 with ovrCnt := s1.ovrCnt + 1#4 }
  if s2.ovrCnt.toNat = ovrDuration s2.ovrState then ovrAdvance s2 else s2

/-- OVRSTART(n) (R250). -/
def ovrStart (n : BitVec 2) (s : State) : State :=
  { s with ovrState := .initialPause, ovrCnt := 0#4, ovrIdx := 0#2, ovrN := n }

/-! ### RENDER -/

/-- The normal rendering of the active LedMode (R240, R242 to R244); `b` is BATT. -/
def renderMode (b : Byte) (s : State) : State :=
  match s.ledMode with
  | .batteryMonitor =>
    match battClass b with
    | .green => pwmWrite Config.battGreen s
    | .yellow => pwmWrite Config.battYellow s
    | .red => pwmWrite Config.battRed s
    | .low => showPulse s
  | .vuMeter => pwmWrite (vuDisplay s.vuState) s
  | .solidRed => pwmWrite Config.solidRed s
  | .solidGreen => pwmWrite Config.solidGreen s
  | .solidBlue => pwmWrite Config.solidBlue s
  | .solidWhite => pwmWrite Config.solidWhite s
  | .editSw1 => s
  | .editSw2 => s

/-- The render with no override: the pulse for a battery below the RED watermark, else the active mode (R240). -/
def renderNormal (b : Byte) (s : State) : State :=
  if b.toNat < Config.battR then showPulse s else renderMode b s

/-- RENDER: override, else low battery, else mode. "Reading BATT while it is ⊥ is a model fault" (R240; R49, I17); an active override
reads no BATT. -/
def render (s : State) : Result :=
  if overrideActive s then .next (overrideStep s)
  else
    match s.batt with
    | none => .fault .battNoValue
    | some b => .next (renderNormal b s)

/-- The meaning of RENDER (R240). -/
def execRender (s : State) : Result := render s

/-- The meaning of OVRSTART (R250). -/
def execOvrstart (n : BitVec 2) (s : State) : Result := .next (ovrStart n s)

end Sys2Proof.Machine
end

