-- ==== Sys2Proof/Machine/Preference.lean ====
section
/-! DEFINITION. The preference-log controller: PREFINIT, PREFREAD and PREFWRITE (R300 to R308). -/

namespace Sys2Proof.Machine

/-- PREFINIT: the default record to slot 0; the result is OK = `true` or FAIL = `false` (R301). -/
def prefInitialise (s : State) : Bool × State :=
  let w := nvWrite 0#9 0x00#8 s
  if w.1 then (true, prefFound 1#10 0x00#8 w.2)
  else (false, raiseNv (.nvWriteFail 0#9) w.2)

/-- The backward scan over the slots below `n`: the result is (OK, record) = `some record` or (FAIL, ·) = `none` (R302). -/
def prefScan : Nat → State → Option Byte × State
  | 0, s => (some 0x00#8, prefFound 0#10 0x00#8 s)
  | n + 1, s =>
    let r := nvRead (BitVec.ofNat 9 n) s
    match r.1 with
    | none => (none, raiseNv (.nvReadFail (BitVec.ofNat 9 n)) r.2)
    | some b =>
      if isRecord b then (some b, prefFound (BitVec.ofNat 10 (n + 1)) b r.2)
      else prefScan n r.2

/-- PREFREAD (R302). -/
def prefRead (s : State) : Option Byte × State := prefScan Config.nvSlots s

/-- The append of PREFWRITE: one slot write at the cursor, nv_addr taking the cursor's low 9 bits (R303, R70). -/
def prefAppend (c : Byte) (s : State) : Bool × State :=
  let a := s.prefCur.setWidth 9
  let w := nvWrite a c s
  if w.1 then (true, prefAppended (s.prefCur + 1#10) c w.2)
  else (false, raiseNv (.nvWriteFail a) w.2)

/-- PREFWRITE once the cursor is known: nothing for the effective record, else an erase if the sector is full, and the
append (R303). -/
def prefCommit (c : Byte) (s : State) : Bool × State :=
  if c = s.prefEff then (true, s)
  else if s.prefCur = 512#10 then
    let e := nvErase s
    if e.1 then prefAppend c (prefAppended 0#10 s.prefEff e.2)
    else (false, raiseNv .nvEraseFail e.2)
  else prefAppend c s

/-- PREFWRITE(rec): OK = `true`, FAIL = `false` (R303). -/
def prefWrite (record : Byte) (s : State) : Bool × State :=
  let c := record &&& 0x7F#8
  if prefReady s then prefCommit c s
  else
    let r := prefRead s
    if r.1.isSome then prefCommit c r.2 else (false, r.2)

/-- The meaning of PREFINIT (R301). -/
def execPrefinit (s : State) : Result := .next (prefInitialise s).2

/-- The meaning of PREFREAD (R302); its result goes to a caller, not to a port. -/
def execPrefread (s : State) : Result := .next (prefRead s).2

/-- The meaning of PREFWRITE (R303); its result goes to a caller, not to a port. -/
def execPrefwrite (record : Byte) (s : State) : Result := .next (prefWrite record s).2

end Sys2Proof.Machine
end

