-- ==== Sys2Proof/Machine/Debounce.lean ====
section
/-! DEFINITION. The switch debouncer and the edge handlers: DEBOUNCE and SWEVT (R180 to R186). -/

namespace Sys2Proof.Machine

/-- PREFWRITE of the record of the current modes; its result changes nothing else (R183, R184, R304). -/
def persistModes (s : State) : State := (prefWrite (encodeRecord s.rvcMode s.ledMode) s).2

/-- The next LedMode, 7 wrapping to 0 (R183). -/
def nextLedMode (l : LedMode) : LedMode := ledOfCode (ledCode l + 1#3)

/-- The mode-release handler (R183). -/
def modeRelease (s : State) : State :=
  let s1 := { s with ledMode := nextLedMode s.ledMode }
  persistModes (if s1.ledMode = .vuMeter then { s1 with vuState := Config.vuMax } else s1)

/-- The other RvcMode (R184). -/
def otherRvcMode : RvcMode → RvcMode
  | .defaultWithMute => .traditionalCurve
  | .traditionalCurve => .defaultWithMute

/-- The flash count the new RvcMode gives (R184). -/
def curveFlashes : RvcMode → BitVec 2
  | .defaultWithMute => 1#2
  | .traditionalCurve => 2#2

/-- The curve-release handler (R184). -/
def curveRelease (s : State) : State :=
  let s1 := { s with rvcMode := otherRvcMode s.rvcMode }
  persistModes (ovrStart (curveFlashes s1.rvcMode) s1)

/-- SWEVT(s, e): a press does nothing; a release runs its switch's handler (R182, R185). -/
def switchEvent (sw : SwitchId) (e : Edge) (s : State) : State :=
  match e with
  | .press => s
  | .release => if sw = Config.swMode then modeRelease s else curveRelease s

/-- The edge a committed level is: 0 is a press, 1 a release (R180). -/
def edgeOfLevel (raw : Bool) : Edge := if raw then .release else .press

/-- DEBOUNCE(s) (R180). -/
def debounce (sw : SwitchId) (s : State) : State :=
  let p := pinRead sw s
  let r := switchRegs sw s
  if r.cnt.toNat + 1 = Config.debN ∧ p.1 ≠ r.deb then
    switchEvent sw (edgeOfLevel p.1)
      (emit [.ev sw (edgeOfLevel p.1)] (setSwitchRegs sw ⟨p.1, p.1, 0#3⟩ p.2))
  else if p.1 = r.deb then setSwitchRegs sw ⟨p.1, r.deb, 0#3⟩ p.2
  else setSwitchRegs sw ⟨p.1, r.deb, r.cnt + 1#3⟩ p.2

/-- The meaning of DEBOUNCE (R180). -/
def execDebounce (sw : SwitchId) (s : State) : Result := .next (debounce sw s)

/-- The meaning of SWEVT (R182). -/
def execSwevt (sw : SwitchId) (e : Edge) (s : State) : Result := .next (switchEvent sw e s)

end Sys2Proof.Machine
end

