-- ==== Sys2Proof/Machine/Tick.lean ====
section
/-! DEFINITION. The tick sequencer: TICK and NOP (R160 to R167). -/

namespace Sys2Proof.Machine

/-- TC after a tick: (TC + 1) mod 100 (R34, R160). -/
def tickCount (s : State) : Nat := (s.tc.toNat + 1) % Config.tcMod

/-- The 5th-tick group: attenuation update, VU sample in VuMeter mode, render (R160, R161). -/
def fifthTick (s : State) : Result :=
  andThen (rvcUpdate false s) fun s1 =>
    andThen (if s1.ledMode = .vuMeter then vuSample s1 else .next s1) render

/-- TICK: TC first, then both debounces, then the 5th-tick group, then the battery sample of the 100th tick (R160 to R163). -/
def tickOp (s : State) : Result :=
  let n := tickCount s
  let s1 := debounce .sw1 (debounce .sw0 { s with tc := BitVec.ofNat 7 n })
  andThen (if n % Config.subDiv = 0 then fifthTick s1 else .next s1) fun s2 =>
    if n = 0 then batSample s2 else .next s2

/-- The meaning of TICK (R160). -/
def execTick (s : State) : Result := tickOp s

/-- The meaning of NOP: nothing (R165). -/
def execNop (s : State) : Result := .next s

end Sys2Proof.Machine
end

