-- ==== Sys2Proof/Machine/Reset.lean ====
section
/-! DEFINITION. Reset and the taking of requests: the register reset (R360), the reset sequence (R361), and what the
block runs next (R340 to R342, R361, R364). Where another hardware takes an interrupt and fetches an instruction, LBM-CORE takes a
tick or a command word; taking one saves nothing and changes no mode (R340). -/

namespace Sys2Proof.Machine

/-- The register reset: every register at its reset value; the sector and the device keep what they held, and what
the outside world has ready stays ready; no port event (R360, R364). -/
def registerReset (s : State) : State :=
  { State.reset with
    sector := s.sector
    device := s.device
    requests := s.requests
    inputs := s.inputs
    trace := s.trace }

/-- LEDMODE and RVCMODE from the record PREFREAD returned, the default 0x00 where it failed (R361, R306). -/
def restoreModes (r : Option Byte) (s : State) : State :=
  { s with ledMode := recordLed (r.getD 0x00#8), rvcMode := recordRvc (r.getD 0x00#8) }

/-- RESET_SEQUENCE (R361). -/
def resetSequence (s : State) : Result :=
  let r := prefRead { s with resetPending := false }
  andThen (batSample (restoreModes r.1 r.2)) (rvcUpdate true)

/-- What the block runs next. -/
inductive Action where
  | registerReset
  | resetSequence
  | command (w : Word)
  deriving DecidableEq, Repr

/-- The TICK word; an assertion of `tick` is equivalent to it (E1 of 30_encoding.md, R121, R160). -/
def tickWord : Word := 0x1000#16

/-- Start an operation: its trace is empty. -/
def beginOp (rest : List Request) (s : State) : State := { s with requests := rest, trace := [] }

/-- The operation of a command word, or while it is pending the reset sequence, the word's request then staying next (R361, R363). -/
def takeWord (w : Word) (rest : List Request) (s : State) : Action × State :=
  if s.resetPending then (.resetSequence, beginOp s.requests s) else (.command w, beginOp rest s)

/-- Take the next request. The reset sequence runs before the first tick (R361), and before any command word: "no operation in a run
from reset" reads a register that is ⊥ (I17; log entry 2). With no request made, what comes next is the next tick: the block
waits for it, and ticks come without end (R337, R341; log entry 3). An `rst` that is next while the reset sequence is pending is taken
at once, and the earlier reset's sequence never runs: DESIGN CHOICE, unsafe (R364, R365; log entry 22). -/
def takeRequest (s : State) : Action × State :=
  match s.requests with
  | .rst :: rest => (.registerReset, beginOp rest s)
  | .cmd w :: rest => takeWord w rest s
  | .tick :: rest => takeWord tickWord rest s
  | [] => takeWord tickWord [] s

end Sys2Proof.Machine
end

