-- ==== Sys2Proof/Machine/Dispatch.lean ====
section
/-! DEFINITION. One arm per constructor of Instr, each one call of its meaning. -/

namespace Sys2Proof.Machine

def exec (i : Instr) (s : State) : Host.Outcome State Fault Refusal :=
  match i with
  | .nop => Sys2Proof.Machine.execNop s
  | .tick => Sys2Proof.Machine.execTick s
  | .debounce sw => Sys2Proof.Machine.execDebounce sw s
  | .swevt sw e => Sys2Proof.Machine.execSwevt sw e s
  | .rvcupd force => Sys2Proof.Machine.execRvcupd force s
  | .stepset level => Sys2Proof.Machine.execStepset level s
  | .vusamp => Sys2Proof.Machine.execVusamp s
  | .render => Sys2Proof.Machine.execRender s
  | .batsamp => Sys2Proof.Machine.execBatsamp s
  | .ovrstart n => Sys2Proof.Machine.execOvrstart n s
  | .prefinit => Sys2Proof.Machine.execPrefinit s
  | .prefread => Sys2Proof.Machine.execPrefread s
  | .prefwrite record => Sys2Proof.Machine.execPrefwrite record s

end Sys2Proof.Machine
end

