-- ==== Sys2Proof/Machine/Step.lean ====
section
/-! DEFINITION. One step: one operation, run to completion (R8, R95), or one register reset. -/

namespace Sys2Proof.Machine

/-- Run the operation a command word selects; a reserved word is refused (R130, R338). -/
def runCommand (w : Word) (s : State) : Host.Outcome State Fault Refusal :=
  match decode w with
  | .ok i => exec i s
  | .error e => .refused (.reservedCommand e w)

/-- Take the next request and run it. -/
def step (s : State) : Host.Outcome State Fault Refusal :=
  match takeRequest s with
  | (.registerReset, s1) => .next (registerReset s1)
  | (.resetSequence, s1) => resetSequence s1
  | (.command w, s1) => runCommand w s1

/-- The command word put where the next step takes it: at the head of the requests (R70 port cmd). A word is taken only once the reset
sequence is over, which leaves BATT a reading (R361, R362), so a pending sequence is set as over and BATT as a free reading, and
nothing else of the sequence is done (log entry 2). -/
def State.withFetchWord (s : State) (nbits w : Nat) : State :=
  { s with
    requests := .cmd (portWord nbits w) :: s.requests
    resetPending := false
    batt := if s.resetPending then some Config.battWhenPlaced else s.batt }

end Sys2Proof.Machine
end

