-- ==== Sys2Proof/Safety.lean ====
section
/-! DEFINITION. What the claims speak about: the legal register values (R54), the preference log's invariant (R305), the serial
lines between frames (R50), the device's agreement with ATT_CUR, the inputs an operation finds ready, and the
events an operation makes written out as lists. -/

namespace Sys2Proof.Machine

/-! ### Legal states -/

/-- The register ranges of R54, as R54 lists them. -/
abbrev RegistersInRange (s : State) : Prop :=
  s.tc.toNat ≤ 99 ∧ s.sw0.cnt.toNat ≤ 4 ∧ s.sw1.cnt.toNat ≤ 4 ∧ s.attPrev.toNat ≤ 64 ∧
  (s.vuWin[0].toNat ≤ 128 ∧ s.vuWin[1].toNat ≤ 128 ∧ s.vuWin[2].toNat ≤ 128 ∧ s.vuWin[3].toNat ≤ 128) ∧
  s.pulseLvl.toNat ≤ Config.pulseMax ∧
  (s.ovrState ≠ .idle →
    (s.ovrN = 1#2 ∨ s.ovrN = 2#2) ∧ s.ovrIdx.toNat ≤ s.ovrN.toNat ∧ s.ovrCnt.toNat < ovrDuration s.ovrState) ∧
  s.prefCur.toNat ≤ 512 ∧ s.prefEff.getLsbD 7 = false

/-- The flash index of each override state: what R54's `OVR_IDX ≤ OVR_N` needs to be kept by every step. -/
abbrev FlashIndexLegal (s : State) : Prop :=
  (s.ovrState = .initialPause → s.ovrIdx = 0#2) ∧
  (s.ovrState = .flashOn ∨ s.ovrState = .flashOff → s.ovrIdx.toNat < s.ovrN.toNat) ∧
  (s.ovrState = .finalPause → s.ovrIdx = s.ovrN)

/-- A state whose registers hold legal values (R54, with the flash index of each override state). -/
abbrev Legal (s : State) : Prop := RegistersInRange s ∧ FlashIndexLegal s

/-- The serial lines at their levels between frames (R50). -/
abbrev PinsIdle (s : State) : Prop := s.attClk = false ∧ s.attData = true ∧ s.attLoad = true

/-- ATT_CUR shadows the device: once a frame was completed, the device's register holds what it takes from that level (R41, R226). -/
abbrev DeviceShadowed (s : State) : Prop :=
  match s.attCur with
  | none => True
  | some l => s.device.reg = deviceTakes l

/-- No register an operation may read is ⊥ once the reset sequence has run (R49). -/
abbrev BattReady (s : State) : Prop := s.resetPending = true ∨ s.batt ≠ none

/-- What the platform asks next is not `rst`: it is a tick, a command word, or nothing, which is the next tick (log entry 3). -/
abbrev NoRstNext (s : State) : Prop := ∀ rest, s.requests ≠ .rst :: rest

/-- No reserved command word waits (R130); every other may. -/
def NoReservedWords (s : State) : Prop := ∀ w, Request.cmd w ∈ s.requests → ∃ i, decode w = .ok i

/-- No request is a command word: the platform only asserts `tick` and `rst`, as in normal operation (E1). -/
def NoCommands (s : State) : Prop := ∀ w, Request.cmd w ∉ s.requests

/-- No direct STEPSET or RVCUPD command waits, R202's premise; every other command word may. -/
def NoRampCommands (s : State) : Prop :=
  ∀ w, Request.cmd w ∈ s.requests → (∀ level, decode w ≠ .ok (.stepset level)) ∧ ∀ force, decode w ≠ .ok (.rvcupd force)

/-- Every register at its register-reset value (R58, R360). -/
abbrev RegistersReset (t : State) : Prop :=
  t.tc = 0#7 ∧ t.sw0 = ⟨true, true, 0#3⟩ ∧ t.sw1 = ⟨true, true, 0#3⟩ ∧
  t.ledMode = .batteryMonitor ∧ t.rvcMode = .defaultWithMute ∧ t.attPrev = 0#7 ∧ t.attCur = none ∧
  t.vuState = 0#16 ∧ t.vuWin = #v[0#8, 0#8, 0#8, 0#8] ∧ t.vuWp = 0#2 ∧ t.batt = none ∧
  t.pulseLvl = 0#8 ∧ t.pulseDir = .rising ∧
  t.ovrState = .idle ∧ t.ovrCnt = 0#4 ∧ t.ovrIdx = 0#2 ∧ t.ovrN = 0#2 ∧ t.pwm = ⟨0#8, 0#8, 0#8⟩ ∧
  t.attClk = false ∧ t.attData = true ∧ t.attLoad = true ∧
  t.prefCur = 0#10 ∧ t.prefInit = false ∧ t.prefEff = 0x00#8

/-! ### The preference log -/

/-- Slots below `k` hold records and the others are erased (R305). -/
def LogShape (m : Memory) (k : Nat) : Prop :=
  k ≤ 512 ∧ (∀ a, a < k → isRecord (Memory.get m a) = true) ∧ (∀ a, k ≤ a → a < 512 → Memory.get m a = 0xFF#8)

/-- The effective record of a log of `k` records (R300). -/
def effectiveOf (m : Memory) (k : Nat) : Byte := if k = 0 then 0x00#8 else Memory.get m (k - 1)

/-- The log invariant (R305): the sector is a log, and while PREF_INIT = 1 the cursor is its length and PREF_EFF its effective
record. -/
def LogInvariant (s : State) : Prop :=
  ∃ k, LogShape s.sector k ∧
    (s.prefInit = true → s.prefCur.toNat = k ∧ s.prefEff = effectiveOf s.sector k)

/-- The sector is erased: every slot reads 0xFF (R80). -/
def SectorErased (m : Memory) : Prop := ∀ a, a < 512 → Memory.get m a = 0xFF#8

/-- The newest record of the sector is `b`, in slot `a` (R300). -/
def NewestRecord (m : Memory) (a : Nat) (b : Byte) : Prop :=
  a < 512 ∧ Memory.get m a = b ∧ isRecord b = true ∧
    ∀ c, a < c → c < 512 → isRecord (Memory.get m c) = false

/-- No slot holds a record (R300). -/
def NoRecord (m : Memory) : Prop := ∀ a, a < 512 → isRecord (Memory.get m a) = false

/-! ### Inputs an operation finds ready -/

/-- The next `n` NV accesses return ok = 1. -/
def okReady : Nat → Inputs → Bool
  | 0, _ => true
  | n + 1, p => (nextOk p).1 && okReady n (nextOk p).2

/-- The inputs after `n` NV results are drawn. -/
def afterOk : Nat → Inputs → Inputs
  | 0, p => p
  | n + 1, p => afterOk n (nextOk p).2

/-- The inputs after `n` bytes that failed writes and erases leave are drawn (R82, R83). -/
def afterLeft : Nat → Inputs → Inputs
  | 0, p => p
  | n + 1, p => afterLeft n (nextLeft p).2

/-- The next `n` readings of a channel, if all those conversions complete, and the inputs after them. -/
def readingsReady (ch : Channel) : Nat → Inputs → Option (List Byte × Inputs)
  | 0, p => some ([], p)
  | n + 1, p =>
    match (nextReading ch p).1 with
    | none => none
    | some b =>
      match readingsReady ch n (nextReading ch p).2 with
      | none => none
      | some (bs, q) => some (b :: bs, q)

/-- Every conversion the environment has scripted completes (the platform's duty of R345). -/
def ConversionsComplete (p : Inputs) : Prop := none ∉ p.rvc ∧ none ∉ p.audio ∧ none ∉ p.batt

/-- The scripted levels of a switch. -/
def levelsOf (sw : SwitchId) (p : Inputs) : List Bool :=
  match sw with
  | .sw0 => p.sw0
  | .sw1 => p.sw1

/-- The record R128 makes of two modes, as a number. -/
def recordNumber (r : RvcMode) (l : LedMode) : Nat :=
  (match r with
   | .defaultWithMute => 0
   | .traditionalCurve => 8) + 2 * ((ledCode l).toNat % 4)

/-! ### Events -/

/-- The five events of one bit of a frame (R224). -/
def bitEvents (b : Bool) : List Event :=
  [.ser false b false, .delay .setup, .ser true b false, .delay .hold, .ser false b false]

/-- The 51 SER and 32 DELAY events of the frame of `w` when DATA was `d` before it (R224). -/
def frameEvents (d : Bool) (w : Word) : List Event :=
  .ser false d false ::
    [15, 14, 13, 12, 11, 10, 9, 8, 7, 6, 5, 4, 3, 2, 1, 0].flatMap (fun i => bitEvents (w.getLsbD i)) ++
    [.ser false (w.getLsbD 0) true, .ser false true true]

/-- The NVR events of a scan that reads slots 511 down to `a` and every read succeeds (R302). -/
def scanEvents (m : Memory) (a : Nat) : List Event :=
  (List.range (512 - a)).map fun k => .nvr (BitVec.ofNat 9 (511 - k)) (some (Memory.get m (511 - k)))

/-- The levels of the completed frames among some events, in order. -/
def framesOf (es : List Event) : List Nat :=
  es.filterMap fun e => match e with
    | .att l => some l.toNat
    | _ => none

/-- The colours written among some events, in order. -/
def coloursOf (es : List Event) : List Rgb :=
  es.filterMap fun e => match e with
    | .pwm c => some c
    | _ => none

/-- How many STEP_DELAY requests are among some events. -/
def stepDelays (es : List Event) : Nat := es.countP fun e => e == .delay .step

/-- The event is an NV access. -/
def isNvAccess : Event → Bool
  | .nvr _ _ => true
  | .nvw _ _ _ => true
  | .nve _ => true
  | _ => false

/-- The event is an error condition. -/
def isError : Event → Bool
  | .err _ => true
  | _ => false

/-! ### Frames -/

/-- `q` is `p` after draws of NV results and of leftover bytes only: no switch level and no reading was drawn. -/
def NvDraws (p q : Inputs) : Prop :=
  ∃ ok left n, q = { p with nvOk := ok, nvLeft := left, drawn := n }

/-- The shape of every preference operation: it may write PREF_CUR, PREF_INIT, PREF_EFF and the sector, draws NV results, and
adds to the trace (R301 to R303). -/
def PrefOnly (s t : State) : Prop :=
  ∃ cur ini eff sec inp es, NvDraws s.inputs inp ∧ t =
    { s with
      prefCur := cur, prefInit := ini, prefEff := eff, sector := sec, inputs := inp
      trace := s.trace ++ es }

/-! ### Repeated operations -/

/-- The same instruction `n` times. -/
def execTimes (i : Instr) : Nat → State → Result
  | 0, s => .next s
  | n + 1, s => andThen (exec i s) (execTimes i n)

end Sys2Proof.Machine
end

