-- ==== Sys2Proof/Certificates/Slice0/Obligations.lean ====
section
/-! DEFINITION. The statements for the provers. Each docstring names the rules of spec/ it formalises, or says that it is the
model's choice and names the log entry. -/

open Sys2Proof Sys2Proof.Machine

/-! ### Encoding -/

/-- Decoding the word of a well-formed instruction gives the instruction back, at every operand value (R120, R121, R125). -/
def Obligations.DecodeOfEncode : Prop :=
  ∀ i : Instr, i.wellFormed = true → decode (encode i) = .ok i

/-- Every word the decoder accepts is the word of a well-formed instruction, the one it answers (R121, R132). -/
def Obligations.AcceptedWordIsEncoding : Prop :=
  ∀ (w : Word) (i : Instr), decode w = .ok i → i.wellFormed = true ∧ encode i = w

/-- R131: every word is exactly one row of the table or reserved, and no word is in two rows. -/
def Obligations.EveryWordOneRowOrReserved : Prop :=
  ∀ w : Word,
    ((∃ i, decode w = .ok i ∧ (opTable.filter fun r => rowMatches r w).map (·.mnemonic) = [mnemonicOf i]) ∨
     ((∃ e, decode w = .error e) ∧ ∀ r ∈ opTable, rowMatches r w = false)) ∧
    ∀ r ∈ opTable, ∀ q ∈ opTable, rowMatches r w = true → rowMatches q w = true → r = q

/-- R130, R338: the reserved words are those with OP 0xD..0xF, those with a MOD bit R121 does not name for the OP, and those with DATA
where the OP takes none; a step that takes one is refused, and a step that takes any other is not (a step takes a word once no reset
sequence is pending, R361). -/
def Obligations.ReservedWordsRefused : Prop :=
  ∀ (s : State) (w : Word) (rest : List Request), s.requests = .cmd w :: rest → s.resetPending = false →
    let op := w.toNat / 4096
    let modifier := w.toNat / 256 % 16
    let data := w.toNat % 256
    let named := if op = 3 then 4 else if op = 2 ∨ op = 4 ∨ op = 9 then 2 else 1
    (∃ e, step s = .refused (.reservedCommand e w)) ↔ 13 ≤ op ∨ named ≤ modifier ∨ (data ≠ 0 ∧ op ≠ 5 ∧ op ≠ 12)

/-- A few words written out from R133's table. -/
def Obligations.WrittenWordsDecode : Prop :=
  decode 0x0000#16 = .ok .nop ∧ decode 0x1000#16 = .ok .tick ∧ decode 0x2100#16 = .ok (.debounce .sw1) ∧
  decode 0x3200#16 = .ok (.swevt .sw0 .release) ∧ decode 0x4100#16 = .ok (.rvcupd true) ∧
  decode 0x5040#16 = .ok (.stepset 64#8) ∧ decode 0x9100#16 = .ok (.ovrstart 2#2) ∧
  decode 0xC00A#16 = .ok (.prefwrite 0x0A#8)

/-! ### Steps -/

/-- A step that takes a command word which decodes to `i` is `exec i` on the state with the word taken and an empty trace (R120, R21). A step
takes a word once no reset sequence is pending (R361; that this holds of every word is log entry 2). The trace kept in State is
the model's choice (log entry 14). -/
def Obligations.StepRunsDecodedCommand : Prop :=
  ∀ (s : State) (w : Word) (rest : List Request) (i : Instr),
    s.requests = .cmd w :: rest → decode w = .ok i → i.wellFormed = true → s.resetPending = false →
    step s = exec i { s with requests := rest, trace := [] }

/-- R340: taking a tick saves nothing and changes no mode; the block runs TICK on its state as it stands. -/
def Obligations.TickRequestRunsTick : Prop :=
  ∀ (s : State) (rest : List Request), s.requests = .tick :: rest → s.resetPending = false →
    step s = exec .tick { s with requests := rest, trace := [] }

/-- The model's choice (log entry 3): with no request made, the next operation is the next tick's TICK (R337, R341). -/
def Obligations.NoRequestMeansNextTick : Prop :=
  ∀ s : State, s.requests = [] → s.resetPending = false → step s = exec .tick { s with trace := [] }

/-! ### Reset -/

/-- R360: at power-up every register holds its register-reset value, and `rst` sets every register to it, makes no port event, and leaves
the sector and the device. The model's choice, not R360's words: the reset sequence is then pending, and the other requests and the
inputs are kept (log entry 18); and so too where the sequence of an earlier reset is still pending (log entry 22). -/
def Obligations.ResetSetsEveryRegister : Prop :=
  RegistersReset State.reset ∧
  ∀ (s : State) (rest : List Request), s.requests = .rst :: rest →
    ∃ t, step s = .next t ∧ RegistersReset t ∧
      t.trace = [] ∧ t.sector = s.sector ∧ t.device = s.device ∧
      t.resetPending = true ∧ t.requests = rest ∧ t.inputs = s.inputs

/-- R361: before the first tick after a reset, the step is the reset sequence: PREFREAD, the decode of its record (0x00 where it failed)
into LEDMODE and RVCMODE, BATSAMP, and the forced update. The model's choice: it runs before any command word too (log entry 2),
the request is kept (log entry 18), and with no request made a tick is next (log entry 3). -/
def Obligations.ResetSequenceOrder : Prop :=
  ∀ s : State, s.resetPending = true → NoRstNext s →
    ∃ t, exec .prefread { s with resetPending := false, trace := [] } = .next t ∧
      let r : Nat := if t.prefInit then t.prefEff.toNat else 0
      step s = andThen
        (exec .batsamp
          { t with
            ledMode := ledOfCode (BitVec.ofNat 3 (r / 2 % 4))
            rvcMode := if r / 8 % 2 = 1 then .traditionalCurve else .defaultWithMute })
        (exec (.rvcupd true))

/-- R362: the state after the reset sequence, every NV read successful: `a` is the newest record's slot and `b` that record, or both 0
with no record. The modes are restored from it, BATT and the attenuation come from the two readings, and every other register is as it was.
The model's choice: the sequence runs before any command word too (log entry 2), the request is kept (log entry 18), with no request
made a tick is next (log entry 3), and the device's sampled bits (log entry 11). -/
def Obligations.StateAfterResetSequence : Prop :=
  ∀ (s : State) (a cur : Nat) (b x y : Byte) (p q : Inputs),
    s.resetPending = true → NoRstNext s →
    ((NewestRecord s.sector a b ∧ cur = a + 1) ∨ (NoRecord s.sector ∧ a = 0 ∧ b = 0x00#8 ∧ cur = 0)) →
    okReady (512 - a) s.inputs = true →
    nextReading .batt (afterOk (512 - a) s.inputs) = (some x, p) → nextReading .rvc p = (some y, q) →
    let mode : RvcMode := if b.getLsbD 3 then .traditionalCurve else .defaultWithMute
    let level : Byte := BitVec.ofNat 8 (target y mode)
    step s = .next
      { s with
        resetPending := false
        ledMode := ledOfCode (BitVec.ofNat 3 (b.toNat / 2 % 4)), rvcMode := mode
        prefCur := BitVec.ofNat 10 cur, prefInit := true, prefEff := b
        batt := some x
        attPrev := BitVec.ofNat 7 (target y mode), attCur := some level
        attClk := false, attData := true, attLoad := true
        device := ⟨0x00#8 ++ level, level⟩
        inputs := q
        trace := scanEvents s.sector a ++ [.adc .batt x, .adc .rvc y] ++
          frameEvents s.attData (0x00#8 ++ level) ++ [.att level] }

/-! ### The tick -/

/-- R165: NOP leaves the state and the trace. -/
def Obligations.NopDoesNothing : Prop := ∀ s : State, exec .nop s = .next s

/-- R160: TICK is TC <- (TC + 1) mod 100, DEBOUNCE(0), DEBOUNCE(1), every 5th tick RVCUPD, VUSAMP in VuMeter mode and RENDER, and on the
tick that leaves TC = 0 BATSAMP. -/
def Obligations.TickRunsSubOperations : Prop :=
  ∀ s : State,
    let n := (s.tc.toNat + 1) % 100
    exec .tick s =
      andThen (exec (.debounce .sw0) { s with tc := BitVec.ofNat 7 n }) fun s1 =>
      andThen (exec (.debounce .sw1) s1) fun s2 =>
      andThen (if n % 5 = 0 then
          andThen (exec (.rvcupd false) s2) fun s3 =>
          andThen (if s3.ledMode = .vuMeter then exec .vusamp s3 else .next s3) fun s4 => exec .render s4
        else .next s2) fun s5 =>
      if n = 0 then exec .batsamp s5 else .next s5

/-- Where every scripted conversion completes and BATT holds a value, TICK completes, TC counts modulo 100, and the trace only grows;
platform requests and the reset flag are not its to write (R160, R34). -/
def Obligations.TickCompletes : Prop :=
  ∀ s : State, ConversionsComplete s.inputs → s.batt ≠ none →
    ∃ t es, exec .tick s = .next t ∧ t.tc = BitVec.ofNat 7 ((s.tc.toNat + 1) % 100) ∧
      t.trace = s.trace ++ es ∧ t.requests = s.requests ∧ t.resetPending = s.resetPending ∧ t.batt ≠ none ∧
      ConversionsComplete t.inputs

/-- R164: from TC = 0, the k-th TICK leaves TC = k mod 100. -/
def Obligations.TickCountAfterTicks : Prop :=
  ∀ (k : Nat) (s t : State), s.tc = 0#7 → execTimes .tick k s = .next t → t.tc.toNat = k % 100

/-! ### Switches -/

/-- R180: DEBOUNCE on the level it samples: equal to the debounced state it clears the count, different it counts, and the fifth
consecutive difference commits, reports the edge and runs its handler. -/
def Obligations.DebounceResult : Prop :=
  ∀ (sw : SwitchId) (s : State),
    let raw := (nextLevel sw s.inputs).1
    let r := switchRegs sw s
    let s1 := { s with inputs := (nextLevel sw s.inputs).2, trace := s.trace ++ [.pin sw raw] }
    let edge : Edge := if raw then .release else .press
    (raw = r.deb → exec (.debounce sw) s = .next (setSwitchRegs sw ⟨raw, r.deb, 0#3⟩ s1)) ∧
    (raw ≠ r.deb → r.cnt.toNat ≠ 4 →
      exec (.debounce sw) s = .next (setSwitchRegs sw ⟨raw, r.deb, r.cnt + 1#3⟩ s1)) ∧
    (raw ≠ r.deb → r.cnt.toNat = 4 →
      exec (.debounce sw) s =
        exec (.swevt sw edge)
          (setSwitchRegs sw ⟨raw, raw, 0#3⟩ { s1 with trace := s1.trace ++ [.ev sw edge] })) ∧
    ∃ t, exec (.debounce sw) s = .next t

/-- R186, in three parts over the scripted samples of a switch from a cleared count: five consecutive samples that differ from the debounced
state commit it, and not before the fifth; over any run of samples, one that changes the debounced state is the last of five that
all equal it and differ from the state they changed; a contrary sample resets the count to 0. -/
def Obligations.TransitionAfterExactlyFiveSamples : Prop :=
  ∀ (sw : SwitchId) (s : State),
    ((switchRegs sw s).cnt = 0#3 → ∀ (raw : Bool) (rest : List Bool) (k : Nat),
      raw ≠ (switchRegs sw s).deb → levelsOf sw s.inputs = List.replicate 5 raw ++ rest → 1 ≤ k → k ≤ 5 →
      ∃ t, execTimes (.debounce sw) k s = .next t ∧ levelsOf sw t.inputs = List.replicate (5 - k) raw ++ rest ∧
        switchRegs sw t = if k < 5 then ⟨raw, !raw, BitVec.ofNat 3 k⟩ else ⟨raw, raw, 0#3⟩) ∧
    ((switchRegs sw s).cnt = 0#3 → ∀ (raws rest : List Bool) (x : Bool),
      levelsOf sw s.inputs = raws ++ x :: rest →
      ∃ t u, execTimes (.debounce sw) raws.length s = .next t ∧ exec (.debounce sw) t = .next u ∧
        ((switchRegs sw u).deb ≠ (switchRegs sw t).deb →
          x ≠ (switchRegs sw t).deb ∧ ∃ before, raws ++ [x] = before ++ List.replicate 5 x)) ∧
    (∀ rest : List Bool, levelsOf sw s.inputs = (switchRegs sw s).deb :: rest →
      ∃ t, exec (.debounce sw) s = .next t ∧ (switchRegs sw t).cnt = 0#3 ∧
        (switchRegs sw t).deb = (switchRegs sw s).deb)

/-- R185: a press handler does nothing; a press that commits changes the switch's own registers, reports EV(s, PRESS) and nothing else. -/
def Obligations.PressDoesNothing : Prop :=
  ∀ (sw : SwitchId) (s : State),
    exec (.swevt sw .press) s = .next s ∧
    ((switchRegs sw s).cnt = 4#3 → (switchRegs sw s).deb = true → (nextLevel sw s.inputs).1 = false →
      exec (.debounce sw) s = .next
        (setSwitchRegs sw ⟨false, false, 0#3⟩
          { s with
            inputs := (nextLevel sw s.inputs).2
            trace := s.trace ++ [.pin sw false, .ev sw .press] }))

/-- R183: the mode-release handler advances LEDMODE, loads VU_STATE on entering VuMeter, and persists the record; it runs for every
state. -/
def Obligations.ModeReleaseResult : Prop :=
  ∀ s : State,
    let mode := ledOfCode (BitVec.ofNat 3 (((ledCode s.ledMode).toNat + 1) % 8))
    let s1 := { s with ledMode := mode, vuState := if mode = .vuMeter then 0xFFFF#16 else s.vuState }
    ∃ t, exec (.swevt .sw0 .release) s = .next t ∧
      exec (.prefwrite (BitVec.ofNat 8 (recordNumber s.rvcMode mode))) s1 = .next t ∧ PrefOnly s1 t

/-- R184: the curve-release handler toggles RVCMODE, starts the override with the new mode's flash count, and persists the record. -/
def Obligations.CurveReleaseResult : Prop :=
  ∀ s : State,
    let mode : RvcMode := match s.rvcMode with
      | .defaultWithMute => .traditionalCurve
      | .traditionalCurve => .defaultWithMute
    let n : BitVec 2 := if mode = .defaultWithMute then 1#2 else 2#2
    let s1 := { s with
      rvcMode := mode, ovrState := .initialPause, ovrCnt := 0#4, ovrIdx := 0#2, ovrN := n }
    ∃ t, exec (.swevt .sw1 .release) s = .next t ∧
      exec (.prefwrite (BitVec.ofNat 8 (recordNumber mode s.ledMode))) s1 = .next t ∧ PrefOnly s1 t

/-! ### Attenuation -/

/-- R201, R210 to R212: TARGET, written out: 0 above 224, else the curve RVCMODE selects. -/
def Obligations.TargetOfReading : Prop :=
  ∀ raw : Byte,
    let n := raw.toNat
    let lpv := min (n * 255 / (255 - n)) 255
    target raw .defaultWithMute =
      (if n > 224 then 0 else if lpv < 6 then 0 else if lpv > 236 then 64
       else if lpv ≤ 192 then (lpv - 6) * 14 / 192 else 14 + (lpv - 192) * 34 / 44) ∧
    target raw .traditionalCurve = (if n > 224 then 0 else Config.tradTable (133 - min n 133))

/-- R214: the shape of DefaultWithMute over 0..224: non-decreasing, exactly these values, and where they begin and end. -/
def Obligations.DefaultCurveShape : Prop :=
  let values := [0, 1, 2, 3, 4, 5, 6, 7, 8, 9, 10, 11, 12, 13, 14, 17, 19, 21, 24, 27, 29, 32, 34, 37, 40, 43, 45, 64]
  (∀ raw < 224, dwm raw ≤ dwm (raw + 1)) ∧
  (∀ raw ≤ 224, dwm raw ∈ values) ∧ (∀ v ∈ values, ∃ raw ≤ 224, dwm raw = v) ∧
  (∀ raw ≤ 18, dwm raw = 0) ∧ dwm 19 = 1 ∧ (∀ raw ≤ 224, (dwm raw = 14 ↔ raw = 110)) ∧ dwm 122 = 45 ∧
  (∀ raw ≤ 224, (dwm raw = 64 ↔ 123 ≤ raw)) ∧
  (∀ raw ≤ 224, linearPotVal raw ≠ 236) ∧ linearPotVal 122 = 233 ∧ linearPotVal 123 = 237

/-- R215: TRAD_TABLE's entries are in 0..12 and monotonic in one direction; raw = 133 and raw = 0 give its two ends, and TRAD is
constant from 133 on. -/
def Obligations.TraditionalCurveShape : Prop :=
  (∀ i, Config.tradTable i ≤ 12) ∧ (∀ raw, trad raw ≤ 12) ∧
  ((∀ i j, i ≤ j → j ≤ 133 → Config.tradTable i ≤ Config.tradTable j) ∨
   (∀ i j, i ≤ j → j ≤ 133 → Config.tradTable j ≤ Config.tradTable i)) ∧
  trad 133 = Config.tradTable 0 ∧ trad 0 = Config.tradTable 133 ∧ (∀ raw, 133 ≤ raw → trad raw = Config.tradTable 0)

/-- R220, R224, R129: STEPSET sends one frame, all its events in order, and leaves the lines idle; the device takes the level (R226). The
model's choice (log entry 11), on which R226 is silent: what the device takes from a level above 64 is a free value fixed by the
level, and the device's sampled bits are held as a field. -/
def Obligations.StepsetSendsOneFrame : Prop :=
  ∀ (level : Byte) (s : State),
    exec (.stepset level) s = .next
      { s with
        attCur := some level, attClk := false, attData := true, attLoad := true
        device := ⟨0x00#8 ++ level, if level.toNat ≤ 64 then level else Config.deviceAbove64 level⟩
        trace := s.trace ++ frameEvents s.attData (0x00#8 ++ level) ++ [.att level] }

/-- R200: RVCUPD once its conversion completes. Forced: exactly one frame, at the target, whatever ATT_PREV holds. Not forced: the frames
ATT_PREV ± 1, ..., target, a STEP_DELAY between consecutive ones and none elsewhere; none at all when the target is ATT_PREV. The device's
sampled bits as a field are the model's choice (log entry 11). -/
def Obligations.RvcupdResult : Prop :=
  ∀ (s : State) (raw : Byte) (p : Inputs), nextReading .rvc s.inputs = (some raw, p) →
    let goal := target raw s.rvcMode
    let prev := s.attPrev.toNat
    let level : Nat → Byte := fun k => BitVec.ofNat 8 (if goal > prev then prev + k + 1 else prev - (k + 1))
    let frames := (List.range ((goal - prev) + (prev - goal))).flatMap fun k =>
      (if k = 0 then [] else [.delay .step]) ++
        frameEvents (if k = 0 then s.attData else true) (0x00#8 ++ level k) ++ [.att (level k)]
    exec (.rvcupd true) s = .next
      { s with
        inputs := p, attPrev := BitVec.ofNat 7 goal, attCur := some (BitVec.ofNat 8 goal)
        attClk := false, attData := true, attLoad := true
        device := ⟨0x00#8 ++ BitVec.ofNat 8 goal, BitVec.ofNat 8 goal⟩
        trace := s.trace ++ [.adc .rvc raw] ++ frameEvents s.attData (0x00#8 ++ BitVec.ofNat 8 goal) ++
          [.att (BitVec.ofNat 8 goal)] } ∧
    exec (.rvcupd false) s = .next
      { s with
        inputs := p, attPrev := BitVec.ofNat 7 goal
        attCur := if goal = prev then s.attCur else some (BitVec.ofNat 8 goal)
        attClk := if goal = prev then s.attClk else false
        attData := if goal = prev then s.attData else true
        attLoad := if goal = prev then s.attLoad else true
        device := if goal = prev then s.device else ⟨0x00#8 ++ BitVec.ofNat 8 goal, BitVec.ofNat 8 goal⟩
        trace := s.trace ++ [.adc .rvc raw] ++ frames }

/-! ### VU meter -/

/-- R270, R271: VUSAMP takes 20 readings, records the peak in the window, and smooths. -/
def Obligations.VusampResult : Prop :=
  ∀ (s : State) (bs : List Byte) (p : Inputs), readingsReady .audio 20 s.inputs = some (bs, p) →
    let peak := (bs.map fun b => max (b.toNat - 128) (128 - b.toNat)).foldl max 0
    let win := s.vuWin.set s.vuWp.toNat (BitVec.ofNat 8 peak) s.vuWp.isLt
    let sig := max (max win[0].toNat win[1].toNat) (max win[2].toNat win[3].toNat)
    let v := s.vuState.toNat
    exec .vusamp s = .next
      { s with
        inputs := p, vuWin := win, vuWp := BitVec.ofNat 2 ((s.vuWp.toNat + 1) % 4)
        vuState := BitVec.ofNat 16
          (if sig * 256 ≥ v then sig * 256 else if v * 15 / 16 < 256 then 0 else v * 15 / 16)
        trace := s.trace ++ bs.map (.adc .audio) }

/-- R273: with a zero signal the value decays from 0xFFFF to 0 on the 86th sample and from 0x8000 on the 75th, not before, and stays 0. -/
def Obligations.VuDecayReachesZero : Prop :=
  (∀ k < 86, (fun v => smooth v 0)^[k] 0xFFFF ≠ 0) ∧ (fun v => smooth v 0)^[86] 0xFFFF = 0 ∧
  (∀ k < 75, (fun v => smooth v 0)^[k] 0x8000 ≠ 0) ∧ (fun v => smooth v 0)^[75] 0x8000 = 0 ∧ smooth 0 0 = 0

/-- R277: the first VUSAMP after the mode switch enters VuMeter decays VU_STATE to 0xEFFF, shown at index 127, whatever its readings are. -/
def Obligations.FirstSampleAfterEnteringVuMeter : Prop :=
  ∀ (s t u : State), s.ledMode = .batteryMonitor →
    (s.vuWin[0].toNat ≤ 128 ∧ s.vuWin[1].toNat ≤ 128 ∧ s.vuWin[2].toNat ≤ 128 ∧ s.vuWin[3].toNat ≤ 128) →
    exec (.swevt .sw0 .release) s = .next t → exec .vusamp t = .next u →
    t.ledMode = .vuMeter ∧ t.vuState = 0xFFFF#16 ∧ u.vuState = 0xEFFF#16 ∧ vuIndex u.vuState.toNat = 127

/-- R274, R276: the display index, the three colour zones, and their end values. -/
def Obligations.VuIndexAndColour : Prop :=
  (∀ v : BitVec 16, vuIndex v.toNat = min ((v.toNat + 128) / 256) 127) ∧
  (∀ b : Byte, let n := b.toNat
    let c := vuColor b
    (c.r.toNat, c.g.toNat, c.b.toNat) =
      if n ≤ 191 then (0, n * 33 / 191, 0)
      else if n ≤ 223 then ((n - 192) * 50 / 31, 33 + (n - 192) * 7 / 31, 0)
      else (100 + (n - 224) * 155 / 31, 0, 0)) ∧
  vuColor 0#8 = ⟨0#8, 0#8, 0#8⟩ ∧ vuColor 191#8 = ⟨0#8, 33#8, 0#8⟩ ∧ vuColor 192#8 = ⟨0#8, 33#8, 0#8⟩ ∧
  vuColor 223#8 = ⟨50#8, 40#8, 0#8⟩ ∧ vuColor 224#8 = ⟨100#8, 0#8, 0#8⟩ ∧ vuColor 255#8 = ⟨255#8, 0#8, 0#8⟩

/-! ### Display -/

/-- R250: OVRSTART from any state. -/
def Obligations.OvrstartResult : Prop :=
  ∀ (n : BitVec 2) (s : State), (n = 1#2 ∨ n = 2#2) →
    exec (.ovrstart n) s = .next
      { s with ovrState := .initialPause, ovrCnt := 0#4, ovrIdx := 0#2, ovrN := n }

/-- R240 (1), R251: an active override exclusively controls the LED: it shows its state's colour, counts, and leaves the state when its
duration is reached. -/
def Obligations.RenderOverrideStep : Prop :=
  ∀ s : State, s.ovrState ≠ .idle →
    let colour : Rgb := if s.ovrState = .flashOn then Config.flash else ⟨0#8, 0#8, 0#8⟩
    let duration : Nat := if s.ovrState = .flashOn ∨ s.ovrState = .flashOff then 4 else 10
    let done : Bool := s.ovrCnt.toNat + 1 == duration
    let following : OvrState := match s.ovrState with
      | .initialPause => .flashOn
      | .flashOn => .flashOff
      | .flashOff => if s.ovrIdx + 1#2 < s.ovrN then .flashOn else .finalPause
      | .finalPause => .idle
      | .idle => .idle
    exec .render s = .next
      { s with
        pwm := colour, trace := s.trace ++ [.pwm colour]
        ovrCnt := if done then 0#4 else s.ovrCnt + 1#4
        ovrIdx := if done ∧ s.ovrState = .flashOff then s.ovrIdx + 1#2 else s.ovrIdx
        ovrState := if done then following else s.ovrState }

/-- R240 (2), R245: with no override, a battery below 84 shows the pulse, stepped by 6, saturating and reversing at 0 and PULSE_MAX. -/
def Obligations.RenderLowBatteryPulse : Prop :=
  ∀ (s : State) (b : Byte), s.ovrState = .idle → s.batt = some b → b.toNat < 84 →
    let l := s.pulseLvl.toNat
    let next : Nat × PulseDir := match s.pulseDir with
      | .rising => if l + 6 ≥ Config.pulseMax then (Config.pulseMax, .falling) else (l + 6, .rising)
      | .falling => if l ≤ 6 then (0, .rising) else (l - 6, .falling)
    exec .render s = .next
      { s with
        pulseLvl := BitVec.ofNat 8 next.1, pulseDir := next.2, pwm := ⟨BitVec.ofNat 8 next.1, 0#8, 0#8⟩
        trace := s.trace ++ [.pwm ⟨BitVec.ofNat 8 next.1, 0#8, 0#8⟩] }

/-- R240 (3), R242 to R244: with no override and a battery at 84 or above, the active LedMode is rendered; EditSw1 and EditSw2 write
nothing. -/
def Obligations.RenderActiveMode : Prop :=
  ∀ (s : State) (b : Byte), s.ovrState = .idle → s.batt = some b → 84 ≤ b.toNat →
    let colour : Option Rgb := match s.ledMode with
      | .batteryMonitor =>
        some (if b.toNat ≥ 99 then Config.battGreen else if b.toNat ≥ 92 then Config.battYellow else Config.battRed)
      | .vuMeter => some (vuColor (Config.logTable (BitVec.ofNat 7 (min ((s.vuState.toNat + 128) / 256) 127))))
      | .solidRed => some Config.solidRed
      | .solidGreen => some Config.solidGreen
      | .solidBlue => some Config.solidBlue
      | .solidWhite => some Config.solidWhite
      | .editSw1 => none
      | .editSw2 => none
    exec .render s = .next
      { s with pwm := colour.getD s.pwm, trace := s.trace ++ (colour.map Event.pwm).toList }

/-- R49, R240: RENDER that would read BATT while it is ⊥ is the model's fault. -/
def Obligations.RenderFaultsOnBottom : Prop :=
  ∀ s : State, s.ovrState = .idle → s.batt = none → exec .render s = .fault .battNoValue

/-- R252: an animation of n flashes occupies exactly 20 + 8n renders, with these colours, whatever the battery and the mode; the render after
is a normal one. -/
def Obligations.AnimationLength : Prop :=
  ∀ (s : State) (n : BitVec 2), (n = 1#2 ∨ n = 2#2) →
    ∃ u t es, exec (.ovrstart n) s = .next u ∧ execTimes .render (20 + 8 * n.toNat) u = .next t ∧
      t.ovrState = .idle ∧ t.trace = s.trace ++ es ∧
      coloursOf es =
        List.replicate 10 ⟨0#8, 0#8, 0#8⟩ ++
        (List.replicate n.toNat
          (List.replicate 4 Config.flash ++ List.replicate 4 ⟨0#8, 0#8, 0#8⟩)).flatten ++
        List.replicate 10 ⟨0#8, 0#8, 0#8⟩ ∧
      ∀ k < 20 + 8 * n.toNat, ∃ v, execTimes .render k u = .next v ∧ v.ovrState ≠ .idle

/-! ### Battery -/

/-- R290: BATSAMP stores the raw reading. -/
def Obligations.BatsampResult : Prop :=
  ∀ (s : State) (b : Byte) (p : Inputs), nextReading .batt s.inputs = (some b, p) →
    exec .batsamp s = .next { s with inputs := p, batt := some b, trace := s.trace ++ [.adc .batt b] }

/-- R291: the four classes, each by its range. -/
def Obligations.BatteryClassRanges : Prop :=
  ∀ b : Byte, (battClass b = .green ↔ 99 ≤ b.toNat) ∧ (battClass b = .yellow ↔ 92 ≤ b.toNat ∧ b.toNat ≤ 98) ∧
    (battClass b = .red ↔ 84 ≤ b.toNat ∧ b.toNat ≤ 91) ∧ (battClass b = .low ↔ b.toNat ≤ 83)

/-- R333: an operation whose conversion never completes has no next state. -/
def Obligations.HangingSensorIsStuck : Prop :=
  ∀ (s : State) (force : Bool),
    ((nextReading .batt s.inputs).1 = none → exec .batsamp s = .fault (.sensorHang .batt)) ∧
    ((nextReading .rvc s.inputs).1 = none → exec (.rvcupd force) s = .fault (.sensorHang .rvc)) ∧
    (readingsReady .audio 20 s.inputs = none → exec .vusamp s = .fault (.sensorHang .audio))

/-! ### Preferences -/

/-- R301: PREFINIT writes 0x00 to slot 0 and nothing else of the sector; a failed write clears PREF_INIT and leaves PREF_CUR and PREF_EFF. It
draws one NV result, and where the write failed the byte left in the slot (R82), and no other input. -/
def Obligations.PrefinitResult : Prop :=
  ∀ s : State, Memory.wf s.sector = true →
    ∃ sec, Memory.wf sec = true ∧ (∀ a, a ≠ 0 → Memory.get sec a = Memory.get s.sector a) ∧
      ((nextOk s.inputs).1 = true → Memory.get sec 0 = 0x00#8 ∧ (prefInitialise s).1 = true ∧
        exec .prefinit s = .next
          { s with
            prefCur := 1#10, prefEff := 0x00#8, prefInit := true, sector := sec, inputs := afterOk 1 s.inputs
            trace := s.trace ++ [.nvw 0#9 0x00#8 true] }) ∧
      ((nextOk s.inputs).1 = false → (prefInitialise s).1 = false ∧
        exec .prefinit s = .next
          { s with
            prefInit := false, sector := sec, inputs := afterLeft 1 (afterOk 1 s.inputs)
            trace := s.trace ++ [.nvw 0#9 0x00#8 false, .err (.nvWriteFail 0#9)] })

/-- R302: PREFREAD. With every read of its scan successful: the newest record and the cursor one past its slot, or the default and cursor 0.
With a read of slot `a` that fails before a record is found: the scan stops there, PREF_INIT is cleared, PREF_CUR and PREF_EFF stay. -/
def Obligations.PrefreadResult : Prop :=
  ∀ (s : State) (a : Nat) (b : Byte),
    (NewestRecord s.sector a b → okReady (512 - a) s.inputs = true → (prefRead s).1 = some b ∧
      exec .prefread s = .next
        { s with
          prefCur := BitVec.ofNat 10 (a + 1), prefEff := b, prefInit := true
          inputs := afterOk (512 - a) s.inputs, trace := s.trace ++ scanEvents s.sector a }) ∧
    (NoRecord s.sector → okReady 512 s.inputs = true → (prefRead s).1 = some 0x00#8 ∧
      exec .prefread s = .next
        { s with
          prefCur := 0#10, prefEff := 0x00#8, prefInit := true
          inputs := afterOk 512 s.inputs, trace := s.trace ++ scanEvents s.sector 0 }) ∧
    (a < 512 → (∀ c, a < c → c < 512 → isRecord (Memory.get s.sector c) = false) →
      okReady (511 - a) s.inputs = true → (nextOk (afterOk (511 - a) s.inputs)).1 = false →
      (prefRead s).1 = none ∧ exec .prefread s = .next
        { s with
          prefInit := false, inputs := (nextOk (afterOk (511 - a) s.inputs)).2
          trace := s.trace ++ scanEvents s.sector (a + 1) ++
            [.nvr (BitVec.ofNat 9 a) none, .err (.nvReadFail (BitVec.ofNat 9 a))] })

/-- R303: PREFWRITE of the effective record makes no NV access and changes nothing, even when the sector is full. -/
def Obligations.PrefwriteOfEffectiveRecord : Prop :=
  ∀ (s : State) (r : Byte), s.prefInit = true → r &&& 0x7F#8 = s.prefEff →
    (prefWrite r s).1 = true ∧ exec (.prefwrite r) s = .next s

/-- R303: PREFWRITE of another record with the cursor below 512 and the write successful appends it at the cursor. -/
def Obligations.PrefwriteAppends : Prop :=
  ∀ (s : State) (r : Byte), Memory.wf s.sector = true → s.prefInit = true → r &&& 0x7F#8 ≠ s.prefEff →
    s.prefCur.toNat < 512 → (nextOk s.inputs).1 = true →
    (prefWrite r s).1 = true ∧ ∃ sec, Memory.wf sec = true ∧
      (∀ a, Memory.get sec a = if a = s.prefCur.toNat then r &&& 0x7F#8 else Memory.get s.sector a) ∧
      exec (.prefwrite r) s = .next
        { s with
          prefCur := s.prefCur + 1#10, prefEff := r &&& 0x7F#8, sector := sec, inputs := (nextOk s.inputs).2
          trace := s.trace ++ [.nvw (BitVec.ofNat 9 s.prefCur.toNat) (r &&& 0x7F#8) true] }

/-- R303: PREFWRITE of another record with the cursor at 512 erases the sector and writes slot 0, both accesses successful. -/
def Obligations.PrefwriteErasesWhenFull : Prop :=
  ∀ (s : State) (r : Byte), s.prefInit = true → r &&& 0x7F#8 ≠ s.prefEff → s.prefCur = 512#10 →
    okReady 2 s.inputs = true →
    (prefWrite r s).1 = true ∧ ∃ sec, (∀ a, Memory.get sec a = if a = 0 then r &&& 0x7F#8 else 0xFF#8) ∧
      exec (.prefwrite r) s = .next
        { s with
          prefCur := 1#10, prefEff := r &&& 0x7F#8, sector := sec, inputs := afterOk 2 s.inputs
          trace := s.trace ++ [.nve true, .nvw 0#9 (r &&& 0x7F#8) true] }

/-- R303, R306: a failed access of PREFWRITE clears PREF_INIT and leaves PREF_EFF, and PREF_CUR as it was at that access: a failed
append below 512, a failed erase at 512, a failed append after a good erase. Each draws its NV results and the bytes the failed access
leaves (R82, R83), and no other input. -/
def Obligations.PrefwriteFailures : Prop :=
  ∀ (s : State) (r : Byte), Memory.wf s.sector = true → s.prefInit = true → r &&& 0x7F#8 ≠ s.prefEff →
    (s.prefCur.toNat < 512 → (nextOk s.inputs).1 = false → (prefWrite r s).1 = false ∧
      ∃ sec, Memory.wf sec = true ∧ (∀ a, a ≠ s.prefCur.toNat → Memory.get sec a = Memory.get s.sector a) ∧
        exec (.prefwrite r) s = .next
          { s with
            prefInit := false, sector := sec, inputs := afterLeft 1 (afterOk 1 s.inputs)
            trace := s.trace ++
              [.nvw (BitVec.ofNat 9 s.prefCur.toNat) (r &&& 0x7F#8) false,
               .err (.nvWriteFail (BitVec.ofNat 9 s.prefCur.toNat))] }) ∧
    (s.prefCur = 512#10 → (nextOk s.inputs).1 = false → (prefWrite r s).1 = false ∧
      ∃ sec, Memory.wf sec = true ∧
        exec (.prefwrite r) s = .next
          { s with
            prefInit := false, sector := sec, inputs := afterLeft 512 (afterOk 1 s.inputs)
            trace := s.trace ++ [.nve false, .err .nvEraseFail] }) ∧
    (s.prefCur = 512#10 → (nextOk s.inputs).1 = true → (nextOk (nextOk s.inputs).2).1 = false →
      (prefWrite r s).1 = false ∧ ∃ sec, Memory.wf sec = true ∧ (∀ a, a ≠ 0 → Memory.get sec a = 0xFF#8) ∧
        exec (.prefwrite r) s = .next
          { s with
            prefCur := 0#10, prefInit := false, sector := sec, inputs := afterLeft 1 (afterOk 2 s.inputs)
            trace := s.trace ++ [.nve true, .nvw 0#9 (r &&& 0x7F#8) false, .err (.nvWriteFail 0#9)] })

/-- R303: with PREF_INIT = 0, PREFWRITE is a PREFREAD first, and then, if that succeeded, the PREFWRITE on what it left. -/
def Obligations.PrefwriteRecoversCursorFirst : Prop :=
  ∀ (s : State) (r : Byte), s.prefInit = false →
    ∃ t, exec .prefread s = .next t ∧
      (t.prefInit = true → (prefWrite r s).1 = (prefWrite r t).1 ∧ exec (.prefwrite r) s = exec (.prefwrite r) t) ∧
      (t.prefInit = false → (prefWrite r s).1 = false ∧ exec (.prefwrite r) s = .next t)

/-- R307: under the log invariant with every access successful, a written record R that differs from the effective one is what the next read
finds, the write makes exactly one append, and writing R again changes nothing. -/
def Obligations.WriteThenReadGivesRecord : Prop :=
  ∀ (s : State) (r : Byte), LogInvariant s → Memory.wf s.sector = true → s.prefInit = true →
    r.getLsbD 7 = false → r ≠ s.prefEff → okReady 514 s.inputs = true →
    ∃ t es u, exec (.prefwrite r) s = .next t ∧ t.trace = s.trace ++ es ∧
      (es.countP fun e => match e with
        | .nvw _ _ _ => true
        | _ => false) = 1 ∧
      exec (.prefwrite r) t = .next t ∧
      exec .prefread t = .next u ∧ u.prefEff = r ∧ u.prefInit = true ∧ u.prefCur = t.prefCur ∧ u.sector = t.sector

/-! ### Frames over all instructions -/

/-- R31, R58: a register is written only by the operations its "written by" column names (those that run a named one in line
among them). The last conjuncts are about the model's own fields, which R58 does not name: no instruction writes the reset flag or
the requests (log entries 2, 18), and the trace only grows (log entry 14). -/
def Obligations.RegistersWrittenOnlyByNamed : Prop :=
  ∀ (i : Instr) (s t : State), exec i s = .next t →
    (i ≠ .tick → t.tc = s.tc) ∧
    (i ≠ .tick → i ≠ .debounce .sw0 → t.sw0 = s.sw0) ∧ (i ≠ .tick → i ≠ .debounce .sw1 → t.sw1 = s.sw1) ∧
    (i ≠ .tick → i ≠ .debounce .sw0 → i ≠ .swevt .sw0 .release → t.ledMode = s.ledMode) ∧
    (i ≠ .tick → i ≠ .debounce .sw1 → i ≠ .swevt .sw1 .release → t.rvcMode = s.rvcMode) ∧
    (i ≠ .tick → (∀ f, i ≠ .rvcupd f) → t.attPrev = s.attPrev) ∧
    (i ≠ .tick → (∀ f, i ≠ .rvcupd f) → (∀ l, i ≠ .stepset l) →
      t.attCur = s.attCur ∧ t.attClk = s.attClk ∧ t.attData = s.attData ∧ t.attLoad = s.attLoad ∧ t.device = s.device) ∧
    (i ≠ .tick → i ≠ .vusamp → i ≠ .debounce .sw0 → i ≠ .swevt .sw0 .release → t.vuState = s.vuState) ∧
    (i ≠ .tick → i ≠ .vusamp → t.vuWin = s.vuWin ∧ t.vuWp = s.vuWp) ∧
    (i ≠ .tick → i ≠ .batsamp → t.batt = s.batt) ∧
    (i ≠ .tick → i ≠ .render → t.pwm = s.pwm ∧ t.pulseLvl = s.pulseLvl ∧ t.pulseDir = s.pulseDir) ∧
    (i ≠ .tick → i ≠ .render → (∀ n, i ≠ .ovrstart n) → i ≠ .debounce .sw1 → i ≠ .swevt .sw1 .release →
      t.ovrState = s.ovrState ∧ t.ovrCnt = s.ovrCnt ∧ t.ovrIdx = s.ovrIdx) ∧
    (i ≠ .tick → (∀ n, i ≠ .ovrstart n) → i ≠ .debounce .sw1 → i ≠ .swevt .sw1 .release → t.ovrN = s.ovrN) ∧
    (i ≠ .tick → (∀ w, i ≠ .debounce w) → (∀ w, i ≠ .swevt w .release) → i ≠ .prefinit → i ≠ .prefread →
      (∀ r, i ≠ .prefwrite r) → t.prefCur = s.prefCur ∧ t.prefInit = s.prefInit ∧ t.prefEff = s.prefEff) ∧
    t.resetPending = s.resetPending ∧ t.requests = s.requests ∧ ∃ es, t.trace = s.trace ++ es

/-- R84, R166: only the preference operations and a release handler reach the sector: an operation that is none of them leaves every slot and
the preference registers and makes no NV access, unless a release was committed in it (DEBOUNCE, alone or in TICK). -/
def Obligations.OnlyPreferenceOpsReachSector : Prop :=
  ∀ (i : Instr) (s t : State) (es : List Event), exec i s = .next t → t.trace = s.trace ++ es →
    i ≠ .prefinit → i ≠ .prefread → (∀ r, i ≠ .prefwrite r) → (∀ w, i ≠ .swevt w .release) →
    (∀ w, Event.ev w .release ∉ es) →
    t.sector = s.sector ∧ t.prefCur = s.prefCur ∧ t.prefInit = s.prefInit ∧ t.prefEff = s.prefEff ∧
    t.inputs.nvOk = s.inputs.nvOk ∧ ∀ e ∈ es, isNvAccess e = false

/-- Every instruction answers a next state where the scripted conversions complete and BATT holds a value: the only two stops of
an instruction are R333's and R49's. -/
def Obligations.EveryInstructionCompletes : Prop :=
  ∀ (i : Instr) (s : State), ConversionsComplete s.inputs → s.batt ≠ none → ∃ t, exec i s = .next t

/-! ### Invariants of every step -/

/-- R54: every step keeps the legal register values. -/
def Obligations.StepKeepsLegalRegisters : Prop :=
  ∀ s t : State, Legal s → step s = .next t → Legal t

/-- The reset state meets every invariant stated below. From the spec's reset values: legal registers (R54), idle lines (R50), ATT_CUR and so the
device shadow (R41). The model's choices, being about its own fields: the pending reset sequence, and by it the ready battery (log
entry 18); the empty request list, so no command, ramp command or reserved word waits (log entry 2); the empty input lists, so every
scripted conversion completes (log entry 4). The canonical sector and the log invariant (R305) rest on the erased sector of
State.reset, the model's choice too (log entry 6); so the last clause says the log invariant of every state with an erased sector and
PREF_INIT = 0, which is where R305 starts. -/
def Obligations.ResetMeetsInvariants : Prop :=
  Legal State.reset ∧ Memory.wf State.reset.sector = true ∧ PinsIdle State.reset ∧ DeviceShadowed State.reset ∧
  NoCommands State.reset ∧ NoRampCommands State.reset ∧ State.reset.resetPending = true ∧ BattReady State.reset ∧
  NoReservedWords State.reset ∧ ConversionsComplete State.reset.inputs ∧
  LogInvariant State.reset ∧ ∀ s : State, SectorErased s.sector → s.prefInit = false → LogInvariant s

/-- Every step keeps the sector in canonical form, and its slots within 0..511 (R80, R90). -/
def Obligations.StepKeepsCanonicalSector : Prop :=
  ∀ s t : State, Memory.wf s.sector = true → step s = .next t → Memory.wf t.sector = true

/-- R50, R41, R226: between operations the serial lines are idle and the device's register is what it takes from ATT_CUR. For a level up to 64
that is the level (R226); for one above 64, which a STEPSET command reaches, R226 is silent, and that it is a free value fixed by the
level is the model's choice (log entry 11). -/
def Obligations.StepKeepsLinesIdleAndShadow : Prop :=
  ∀ s t : State, PinsIdle s → DeviceShadowed s → step s = .next t → PinsIdle t ∧ DeviceShadowed t

/-- R202: while no direct STEPSET or RVCUPD command is given, whatever other command words are, ATT_CUR is ATT_PREV once the reset sequence
has run, so the first frame of every ramp differs by one from the last frame sent. -/
def Obligations.StepKeepsRampBase : Prop :=
  ∀ s t : State, NoRampCommands s → (s.resetPending = true ∨ s.attCur = some (s.attPrev.setWidth 8)) → step s = .next t →
    NoRampCommands t ∧ (t.resetPending = true ∨ t.attCur = some (t.attPrev.setWidth 8))

/-- R49, I17: no operation in a run from reset reads a register that is ⊥, whatever command words are given. That every command word waits
for a pending reset sequence is the model's choice (log entry 2). -/
def Obligations.NoBottomRead : Prop :=
  ∀ s : State, BattReady s → step s ≠ .fault .battNoValue ∧ ∀ t, step s = .next t → BattReady t

/-- With no reserved command word (R338) and conversions that complete (R333), every step of a run from reset answers a next state, as the block
runs for ever (R337). The model's choices it rests on: every command word waits for a pending reset sequence, so that none right
after `rst` stops (log entry 2), and with no request made the step is the next tick (log entry 3). -/
def Obligations.RunFromResetGoesOn : Prop :=
  ∀ s : State, BattReady s → NoReservedWords s → ConversionsComplete s.inputs →
    ∃ t, step s = .next t ∧ BattReady t ∧ NoReservedWords t ∧ ConversionsComplete t.inputs

/-- R305: every step that records no error and does not take a PREFINIT command keeps the log invariant. That the log is kept with a PREFINIT
word next while the reset sequence is pending rests on the model's choice that every word waits for it (log entry 2; R361 names only
the first tick). -/
def Obligations.StepKeepsLogInvariant : Prop :=
  ∀ s t : State, LogInvariant s → Memory.wf s.sector = true → (s.resetPending = true ∨ ∀ rest, s.requests ≠ .cmd 0xA000#16 :: rest) →
    step s = .next t → (∀ e ∈ t.trace, isError e = false) → LogInvariant t

/-- R305, R301: PREFINIT on an erased sector makes the log consistent. -/
def Obligations.PrefinitStartsLog : Prop :=
  ∀ s : State, SectorErased s.sector → Memory.wf s.sector = true → (nextOk s.inputs).1 = true →
    ∃ t, exec .prefinit s = .next t ∧ LogInvariant t ∧ t.prefCur = 1#10 ∧ t.prefInit = true
end

