-- ==== Sys2Proof/Laws/Bounds.lean ====
section
/-! SUPPORT. The ranges of what the operations compute: targets, table entries, peaks, the pulse. -/

namespace Sys2Proof.Machine

theorem linearPotVal_le (n : Nat) : linearPotVal n ≤ 255 := by unfold linearPotVal clip; omega

theorem dwm_le (n : Nat) : dwm n ≤ 64 := by
  have := linearPotVal_le n
  unfold dwm dwmOfLpv
  simp only [Config.curveE, Config.curveD, Config.attMax, Config.curveA, Config.curveB, Config.curveC]
  split; omega; split; omega; split; omega; omega

theorem tradRising_le (n : Nat) : Config.tradRising n ≤ 12 := by
  induction n with
  | zero => unfold Config.tradRising; simp [Config.tradMax]
  | succ n ih => unfold Config.tradRising; simp [Config.tradMax]; omega

theorem tradRising_mono {i j : Nat} (h : i ≤ j) : Config.tradRising i ≤ Config.tradRising j := by
  induction j with
  | zero => simp_all
  | succ j ih =>
    rcases Nat.lt_or_eq_of_le h with h | rfl
    · refine (ih (by omega)).trans ?_
      conv_rhs => unfold Config.tradRising
      omega
    · rfl

/-- Every target is in 0..64 (R201). -/
theorem target_le (raw : Byte) (mode : RvcMode) : target raw mode ≤ 64 := by
  unfold target
  split
  · omega
  · cases mode
    · exact dwm_le _
    · show Config.tradTable _ ≤ 64
      unfold Config.tradTable
      split <;> exact (tradRising_le _).trans (by omega)

theorem ofNat7_toNat {n : Nat} (h : n ≤ 64) : (BitVec.ofNat 7 n).toNat = n := by simp; omega

theorem ofNat8_toNat {n : Nat} (h : n ≤ 255) : (BitVec.ofNat 8 n).toNat = n := by simp; omega

theorem deviation_le (b : Byte) : deviation b ≤ 128 := by
  have := b.isLt
  unfold deviation
  simp only [Config.vuMid]
  omega

/-- Every peak is in 0..128 (R270). -/
theorem peakOf_le (bs : List Byte) : peakOf bs ≤ 128 := by
  have key : ∀ (l : List Byte) (p : Nat), p ≤ 128 → l.foldl (fun p b => max p (deviation b)) p ≤ 128 := by
    intro l
    induction l with
    | nil => exact fun _ h => h
    | cons b l ih => exact fun p h => ih _ (max_le h (deviation_le b))
  exact key bs 0 (by omega)

theorem pulseMax_range : 1 ≤ Config.pulseMax ∧ Config.pulseMax ≤ 255 := by
  have := Config.pulseMaxLess1.isLt
  unfold Config.pulseMax
  omega

end Sys2Proof.Machine
end

