-- ==== Sys2Proof/Laws/Decode.lean ====
section
/-! SUPPORT. The three fields of a command word (R120): a word is its fields, and a word put together has the fields it was made
of. -/

namespace Sys2Proof

@[simp] theorem opField_commandWord (op m : BitVec 4) (d : Byte) : opField (commandWord op m d) = op := by
  apply BitVec.eq_of_getLsbD_eq
  intro i hi
  simp only [opField, commandWord, BitVec.getLsbD_extractLsb', BitVec.getLsbD_append]
  have h1 : ¬ 12 + i < 8 := by omega
  have h2 : ¬ 12 + i - 8 < 4 := by omega
  have h3 : 12 + i - 8 - 4 = i := by omega
  simp [hi, h1, h2, h3]

@[simp] theorem modField_commandWord (op m : BitVec 4) (d : Byte) : modField (commandWord op m d) = m := by
  apply BitVec.eq_of_getLsbD_eq
  intro i hi
  simp only [modField, commandWord, BitVec.getLsbD_extractLsb', BitVec.getLsbD_append]
  have h1 : ¬ 8 + i < 8 := by omega
  have h3 : 8 + i - 8 = i := by omega
  simp [hi, h1, h3]

@[simp] theorem dataField_commandWord (op m : BitVec 4) (d : Byte) : dataField (commandWord op m d) = d := by
  apply BitVec.eq_of_getLsbD_eq
  intro i hi
  simp only [dataField, commandWord, BitVec.getLsbD_extractLsb', BitVec.getLsbD_append]
  simp [hi]

/-- A word is its OP, MOD and DATA. -/
theorem commandWord_of_fields (w : Word) : commandWord (opField w) (modField w) (dataField w) = w := by
  apply BitVec.eq_of_getLsbD_eq
  intro i hi
  simp only [commandWord, opField, modField, dataField, BitVec.getLsbD_append, BitVec.getLsbD_extractLsb']
  split
  · simp_all
  · split
    · have h : 8 + (i - 8) = i := by omega
      simp_all
    · have h : 12 + (i - 8 - 4) = i := by omega
      have h' : i - 8 - 4 < 4 := by omega
      simp_all

/-- Every word is put together from some OP, MOD and DATA. -/
theorem exists_commandWord (w : Word) : ∃ op m d, w = commandWord op m d :=
  ⟨_, _, _, (commandWord_of_fields w).symm⟩

/-- The number of a word by its fields. -/
theorem commandWord_toNat (op m : BitVec 4) (d : Byte) :
    (commandWord op m d).toNat = op.toNat * 4096 + m.toNat * 256 + d.toNat := by
  have hd := d.isLt
  have hm := m.isLt
  simp only [commandWord, BitVec.toNat_append, Nat.shiftLeft_eq]
  rw [← Nat.shiftLeft_eq, ← Nat.shiftLeft_add_eq_or_of_lt hd, ← Nat.shiftLeft_eq,
    ← Nat.shiftLeft_add_eq_or_of_lt hm]
  simp only [Nat.shiftLeft_eq]
  omega

/-- `accept` answers `i` when only the named MOD bits are set and DATA is 0 where the operation takes none (R130). -/
theorem accept_eq_ok {used : BitVec 4} {takes : Bool} {w : Word} {i j : Instr} :
    accept used takes w i = .ok j ↔
      modField w &&& ~~~used = 0#4 ∧ (takes = true ∨ dataField w = 0#8) ∧ i = j := by
  unfold accept
  split
  · simp_all
  · split <;> cases takes <;> simp_all

end Sys2Proof
end

