-- ==== Sys2Proof/Laws/Memory.lean ====
section
/-! SUPPORT. The laws of the sector: reading after a write, and every memory operation keeps the canonical form. -/

namespace Sys2Proof.Machine

theorem Memory.wfFrom_cons (lo a : Nat) (v : Byte) (m : Memory) :
    Memory.wfFrom lo ((a, v) :: m) = true ↔
      lo ≤ a ∧ a < 512 ∧ v ≠ Memory.unlisted ∧ Memory.wfFrom (a + 1) m = true := by
  simp [Memory.wfFrom, Config.nvSlots, and_assoc]

/-- A sector well formed from `hi` on is well formed from any lower slot. -/
theorem Memory.wfFrom_mono {lo hi : Nat} {m : Memory} (h : Memory.wfFrom hi m = true) (hl : lo ≤ hi) :
    Memory.wfFrom lo m = true := by
  cases m with
  | nil => rfl
  | cons c m =>
    obtain ⟨a, v⟩ := c
    rw [Memory.wfFrom_cons] at h ⊢
    exact ⟨hl.trans h.1, h.2⟩

/-- Slots below every listed one read as unlisted. -/
theorem Memory.get_below {lo a : Nat} {m : Memory} (h : Memory.wfFrom lo m = true) (ha : a < lo) :
    Memory.get m a = Memory.unlisted := by
  induction m generalizing lo with
  | nil => rfl
  | cons c m ih =>
    obtain ⟨b, v⟩ := c
    rw [Memory.wfFrom_cons] at h
    have hab : a ≠ b := by omega
    simp only [Memory.get, hab, if_false]
    exact ih h.2.2.2 (by omega)

/-- A write keeps the canonical form. -/
theorem Memory.wfFrom_set {lo a : Nat} {m : Memory} (v : Byte) (h : Memory.wfFrom lo m = true)
    (hl : lo ≤ a) (ha : a < 512) : Memory.wfFrom lo (Memory.set m a v) = true := by
  induction m generalizing lo with
  | nil =>
    unfold Memory.set
    split
    · rfl
    · rw [Memory.wfFrom_cons]; exact ⟨hl, ha, by assumption, rfl⟩
  | cons c m ih =>
    obtain ⟨b, x⟩ := c
    have h' := h
    rw [Memory.wfFrom_cons] at h
    unfold Memory.set
    split
    · split
      · exact h'
      · rw [Memory.wfFrom_cons]
        exact ⟨hl, ha, by assumption, by rw [Memory.wfFrom_cons]; exact ⟨by omega, h.2⟩⟩
    · split
      · subst_vars
        split
        · exact Memory.wfFrom_mono h.2.2.2 (by omega)
        · rw [Memory.wfFrom_cons]; exact ⟨hl, ha, by assumption, h.2.2.2⟩
      · rw [Memory.wfFrom_cons]
        exact ⟨h.1, h.2.1, h.2.2.1, ih h.2.2.2 (by omega)⟩

/-- A slot reads the byte last written to it; every other slot reads as before. -/
theorem Memory.get_set_from {lo a : Nat} {m : Memory} (v : Byte) (b : Nat) (h : Memory.wfFrom lo m = true) :
    Memory.get (Memory.set m a v) b = if b = a then v else Memory.get m b := by
  induction m generalizing lo with
  | nil =>
    unfold Memory.set
    split
    · split <;> simp_all [Memory.get]
    · simp [Memory.get]
  | cons c m ih =>
    obtain ⟨k, x⟩ := c
    rw [Memory.wfFrom_cons] at h
    unfold Memory.set
    split
    · split
      · split
        · subst_vars
          have : b ≠ k := by omega
          simp only [Memory.get, this, if_false]
          exact Memory.get_below h.2.2.2 (by omega)
        · rfl
      · simp [Memory.get]
    · split
      · subst_vars
        split
        · split
          · subst_vars
            exact Memory.get_below h.2.2.2 (by omega)
          · rename_i hb; simp [Memory.get, hb]
        · simp only [Memory.get]; split <;> rfl
      · simp only [Memory.get]
        split
        · subst_vars
          split
          · omega
          · rfl
        · exact ih h.2.2.2

theorem Memory.wf_set {a : Nat} {m : Memory} (v : Byte) (h : Memory.wf m = true) (ha : a < 512) :
    Memory.wf (Memory.set m a v) = true :=
  Memory.wfFrom_set v h (Nat.zero_le a) ha

theorem Memory.get_set_same {a : Nat} {m : Memory} (v : Byte) (h : Memory.wf m = true) :
    Memory.get (Memory.set m a v) a = v := by
  simp [Memory.get_set_from v a h]

theorem Memory.get_set_other {a b : Nat} {m : Memory} (v : Byte) (h : Memory.wf m = true) (hb : b ≠ a) :
    Memory.get (Memory.set m a v) b = Memory.get m b := by
  simp [Memory.get_set_from v b h, hb]

@[simp] theorem Memory.get_nil (a : Nat) : Memory.get [] a = Memory.unlisted := rfl

/-- The sector a failed erase leaves is in canonical form. -/
theorem drawnSlots_wf (a n : Nat) (p : Inputs) (h : a + n ≤ 512) :
    Memory.wfFrom a (drawnSlots a n p).1 = true := by
  induction n generalizing a p with
  | zero => rfl
  | succ n ih =>
    have hr := ih (a + 1) (nextLeft p).2 (by omega)
    simp only [drawnSlots]
    split
    · exact Memory.wfFrom_mono hr (by omega)
    · rw [Memory.wfFrom_cons]; exact ⟨le_rfl, by omega, by assumption, hr⟩

/-- Every port primitive that reaches the sector keeps its canonical form. -/
theorem nvRead_wf (a : BitVec 9) (s : State) (h : Memory.wf s.sector = true) :
    Memory.wf (nvRead a s).2.sector = true := h

theorem nvWrite_wf (a : BitVec 9) (v : Byte) (s : State) (h : Memory.wf s.sector = true) :
    Memory.wf (nvWrite a v s).2.sector = true := by
  unfold nvWrite
  dsimp only
  split
  · exact Memory.wf_set _ h a.isLt
  · exact Memory.wf_set _ h a.isLt

theorem nvErase_wf (s : State) : Memory.wf (nvErase s).2.sector = true := by
  unfold nvErase
  dsimp only
  split
  · rfl
  · exact drawnSlots_wf 0 512 _ (by omega)

/-- The sector of the reset state is in canonical form. -/
theorem reset_sector_wf : Memory.wf State.reset.sector = true := rfl

end Sys2Proof.Machine
end

