-- ==== Sys2Proof/Laws/State.lean ====
section
/-! SUPPORT. One lemma per field per update of the state, true by rfl, so that no proof unfolds a record update. -/

namespace Sys2Proof.Machine

variable (s : State)

/-! ### emit -/

@[simp] theorem emit_tc (es : List Event) : (emit es s).tc = s.tc := rfl
@[simp] theorem emit_sw0 (es : List Event) : (emit es s).sw0 = s.sw0 := rfl
@[simp] theorem emit_sw1 (es : List Event) : (emit es s).sw1 = s.sw1 := rfl
@[simp] theorem emit_ledMode (es : List Event) : (emit es s).ledMode = s.ledMode := rfl
@[simp] theorem emit_rvcMode (es : List Event) : (emit es s).rvcMode = s.rvcMode := rfl
@[simp] theorem emit_attPrev (es : List Event) : (emit es s).attPrev = s.attPrev := rfl
@[simp] theorem emit_attCur (es : List Event) : (emit es s).attCur = s.attCur := rfl
@[simp] theorem emit_vuState (es : List Event) : (emit es s).vuState = s.vuState := rfl
@[simp] theorem emit_vuWin (es : List Event) : (emit es s).vuWin = s.vuWin := rfl
@[simp] theorem emit_vuWp (es : List Event) : (emit es s).vuWp = s.vuWp := rfl
@[simp] theorem emit_batt (es : List Event) : (emit es s).batt = s.batt := rfl
@[simp] theorem emit_pulseLvl (es : List Event) : (emit es s).pulseLvl = s.pulseLvl := rfl
@[simp] theorem emit_pulseDir (es : List Event) : (emit es s).pulseDir = s.pulseDir := rfl
@[simp] theorem emit_ovrState (es : List Event) : (emit es s).ovrState = s.ovrState := rfl
@[simp] theorem emit_ovrCnt (es : List Event) : (emit es s).ovrCnt = s.ovrCnt := rfl
@[simp] theorem emit_ovrIdx (es : List Event) : (emit es s).ovrIdx = s.ovrIdx := rfl
@[simp] theorem emit_ovrN (es : List Event) : (emit es s).ovrN = s.ovrN := rfl
@[simp] theorem emit_pwm (es : List Event) : (emit es s).pwm = s.pwm := rfl
@[simp] theorem emit_attClk (es : List Event) : (emit es s).attClk = s.attClk := rfl
@[simp] theorem emit_attData (es : List Event) : (emit es s).attData = s.attData := rfl
@[simp] theorem emit_attLoad (es : List Event) : (emit es s).attLoad = s.attLoad := rfl
@[simp] theorem emit_prefCur (es : List Event) : (emit es s).prefCur = s.prefCur := rfl
@[simp] theorem emit_prefInit (es : List Event) : (emit es s).prefInit = s.prefInit := rfl
@[simp] theorem emit_prefEff (es : List Event) : (emit es s).prefEff = s.prefEff := rfl
@[simp] theorem emit_sector (es : List Event) : (emit es s).sector = s.sector := rfl
@[simp] theorem emit_device (es : List Event) : (emit es s).device = s.device := rfl
@[simp] theorem emit_resetPending (es : List Event) : (emit es s).resetPending = s.resetPending := rfl
@[simp] theorem emit_requests (es : List Event) : (emit es s).requests = s.requests := rfl
@[simp] theorem emit_inputs (es : List Event) : (emit es s).inputs = s.inputs := rfl
@[simp] theorem emit_trace (es : List Event) : (emit es s).trace = s.trace ++ es := rfl

/-! ### withInputs -/

@[simp] theorem withInputs_tc (p : Inputs) : (withInputs p s).tc = s.tc := rfl
@[simp] theorem withInputs_sw0 (p : Inputs) : (withInputs p s).sw0 = s.sw0 := rfl
@[simp] theorem withInputs_sw1 (p : Inputs) : (withInputs p s).sw1 = s.sw1 := rfl
@[simp] theorem withInputs_ledMode (p : Inputs) : (withInputs p s).ledMode = s.ledMode := rfl
@[simp] theorem withInputs_rvcMode (p : Inputs) : (withInputs p s).rvcMode = s.rvcMode := rfl
@[simp] theorem withInputs_attPrev (p : Inputs) : (withInputs p s).attPrev = s.attPrev := rfl
@[simp] theorem withInputs_attCur (p : Inputs) : (withInputs p s).attCur = s.attCur := rfl
@[simp] theorem withInputs_vuState (p : Inputs) : (withInputs p s).vuState = s.vuState := rfl
@[simp] theorem withInputs_vuWin (p : Inputs) : (withInputs p s).vuWin = s.vuWin := rfl
@[simp] theorem withInputs_vuWp (p : Inputs) : (withInputs p s).vuWp = s.vuWp := rfl
@[simp] theorem withInputs_batt (p : Inputs) : (withInputs p s).batt = s.batt := rfl
@[simp] theorem withInputs_pulseLvl (p : Inputs) : (withInputs p s).pulseLvl = s.pulseLvl := rfl
@[simp] theorem withInputs_pulseDir (p : Inputs) : (withInputs p s).pulseDir = s.pulseDir := rfl
@[simp] theorem withInputs_ovrState (p : Inputs) : (withInputs p s).ovrState = s.ovrState := rfl
@[simp] theorem withInputs_ovrCnt (p : Inputs) : (withInputs p s).ovrCnt = s.ovrCnt := rfl
@[simp] theorem withInputs_ovrIdx (p : Inputs) : (withInputs p s).ovrIdx = s.ovrIdx := rfl
@[simp] theorem withInputs_ovrN (p : Inputs) : (withInputs p s).ovrN = s.ovrN := rfl
@[simp] theorem withInputs_pwm (p : Inputs) : (withInputs p s).pwm = s.pwm := rfl
@[simp] theorem withInputs_attClk (p : Inputs) : (withInputs p s).attClk = s.attClk := rfl
@[simp] theorem withInputs_attData (p : Inputs) : (withInputs p s).attData = s.attData := rfl
@[simp] theorem withInputs_attLoad (p : Inputs) : (withInputs p s).attLoad = s.attLoad := rfl
@[simp] theorem withInputs_prefCur (p : Inputs) : (withInputs p s).prefCur = s.prefCur := rfl
@[simp] theorem withInputs_prefInit (p : Inputs) : (withInputs p s).prefInit = s.prefInit := rfl
@[simp] theorem withInputs_prefEff (p : Inputs) : (withInputs p s).prefEff = s.prefEff := rfl
@[simp] theorem withInputs_sector (p : Inputs) : (withInputs p s).sector = s.sector := rfl
@[simp] theorem withInputs_device (p : Inputs) : (withInputs p s).device = s.device := rfl
@[simp] theorem withInputs_resetPending (p : Inputs) : (withInputs p s).resetPending = s.resetPending := rfl
@[simp] theorem withInputs_requests (p : Inputs) : (withInputs p s).requests = s.requests := rfl
@[simp] theorem withInputs_inputs (p : Inputs) : (withInputs p s).inputs = p := rfl
@[simp] theorem withInputs_trace (p : Inputs) : (withInputs p s).trace = s.trace := rfl

/-! ### pwmWrite -/

@[simp] theorem pwmWrite_tc (c : Rgb) : (pwmWrite c s).tc = s.tc := rfl
@[simp] theorem pwmWrite_sw0 (c : Rgb) : (pwmWrite c s).sw0 = s.sw0 := rfl
@[simp] theorem pwmWrite_sw1 (c : Rgb) : (pwmWrite c s).sw1 = s.sw1 := rfl
@[simp] theorem pwmWrite_ledMode (c : Rgb) : (pwmWrite c s).ledMode = s.ledMode := rfl
@[simp] theorem pwmWrite_rvcMode (c : Rgb) : (pwmWrite c s).rvcMode = s.rvcMode := rfl
@[simp] theorem pwmWrite_attPrev (c : Rgb) : (pwmWrite c s).attPrev = s.attPrev := rfl
@[simp] theorem pwmWrite_attCur (c : Rgb) : (pwmWrite c s).attCur = s.attCur := rfl
@[simp] theorem pwmWrite_vuState (c : Rgb) : (pwmWrite c s).vuState = s.vuState := rfl
@[simp] theorem pwmWrite_vuWin (c : Rgb) : (pwmWrite c s).vuWin = s.vuWin := rfl
@[simp] theorem pwmWrite_vuWp (c : Rgb) : (pwmWrite c s).vuWp = s.vuWp := rfl
@[simp] theorem pwmWrite_batt (c : Rgb) : (pwmWrite c s).batt = s.batt := rfl
@[simp] theorem pwmWrite_pulseLvl (c : Rgb) : (pwmWrite c s).pulseLvl = s.pulseLvl := rfl
@[simp] theorem pwmWrite_pulseDir (c : Rgb) : (pwmWrite c s).pulseDir = s.pulseDir := rfl
@[simp] theorem pwmWrite_ovrState (c : Rgb) : (pwmWrite c s).ovrState = s.ovrState := rfl
@[simp] theorem pwmWrite_ovrCnt (c : Rgb) : (pwmWrite c s).ovrCnt = s.ovrCnt := rfl
@[simp] theorem pwmWrite_ovrIdx (c : Rgb) : (pwmWrite c s).ovrIdx = s.ovrIdx := rfl
@[simp] theorem pwmWrite_ovrN (c : Rgb) : (pwmWrite c s).ovrN = s.ovrN := rfl
@[simp] theorem pwmWrite_pwm (c : Rgb) : (pwmWrite c s).pwm = c := rfl
@[simp] theorem pwmWrite_attClk (c : Rgb) : (pwmWrite c s).attClk = s.attClk := rfl
@[simp] theorem pwmWrite_attData (c : Rgb) : (pwmWrite c s).attData = s.attData := rfl
@[simp] theorem pwmWrite_attLoad (c : Rgb) : (pwmWrite c s).attLoad = s.attLoad := rfl
@[simp] theorem pwmWrite_prefCur (c : Rgb) : (pwmWrite c s).prefCur = s.prefCur := rfl
@[simp] theorem pwmWrite_prefInit (c : Rgb) : (pwmWrite c s).prefInit = s.prefInit := rfl
@[simp] theorem pwmWrite_prefEff (c : Rgb) : (pwmWrite c s).prefEff = s.prefEff := rfl
@[simp] theorem pwmWrite_sector (c : Rgb) : (pwmWrite c s).sector = s.sector := rfl
@[simp] theorem pwmWrite_device (c : Rgb) : (pwmWrite c s).device = s.device := rfl
@[simp] theorem pwmWrite_resetPending (c : Rgb) : (pwmWrite c s).resetPending = s.resetPending := rfl
@[simp] theorem pwmWrite_requests (c : Rgb) : (pwmWrite c s).requests = s.requests := rfl
@[simp] theorem pwmWrite_inputs (c : Rgb) : (pwmWrite c s).inputs = s.inputs := rfl
@[simp] theorem pwmWrite_trace (c : Rgb) : (pwmWrite c s).trace = s.trace ++ [.pwm c] := rfl

/-! ### delay -/

@[simp] theorem delay_tc (d : Wait) : (delay d s).tc = s.tc := rfl
@[simp] theorem delay_sw0 (d : Wait) : (delay d s).sw0 = s.sw0 := rfl
@[simp] theorem delay_sw1 (d : Wait) : (delay d s).sw1 = s.sw1 := rfl
@[simp] theorem delay_ledMode (d : Wait) : (delay d s).ledMode = s.ledMode := rfl
@[simp] theorem delay_rvcMode (d : Wait) : (delay d s).rvcMode = s.rvcMode := rfl
@[simp] theorem delay_attPrev (d : Wait) : (delay d s).attPrev = s.attPrev := rfl
@[simp] theorem delay_attCur (d : Wait) : (delay d s).attCur = s.attCur := rfl
@[simp] theorem delay_vuState (d : Wait) : (delay d s).vuState = s.vuState := rfl
@[simp] theorem delay_vuWin (d : Wait) : (delay d s).vuWin = s.vuWin := rfl
@[simp] theorem delay_vuWp (d : Wait) : (delay d s).vuWp = s.vuWp := rfl
@[simp] theorem delay_batt (d : Wait) : (delay d s).batt = s.batt := rfl
@[simp] theorem delay_pulseLvl (d : Wait) : (delay d s).pulseLvl = s.pulseLvl := rfl
@[simp] theorem delay_pulseDir (d : Wait) : (delay d s).pulseDir = s.pulseDir := rfl
@[simp] theorem delay_ovrState (d : Wait) : (delay d s).ovrState = s.ovrState := rfl
@[simp] theorem delay_ovrCnt (d : Wait) : (delay d s).ovrCnt = s.ovrCnt := rfl
@[simp] theorem delay_ovrIdx (d : Wait) : (delay d s).ovrIdx = s.ovrIdx := rfl
@[simp] theorem delay_ovrN (d : Wait) : (delay d s).ovrN = s.ovrN := rfl
@[simp] theorem delay_pwm (d : Wait) : (delay d s).pwm = s.pwm := rfl
@[simp] theorem delay_attClk (d : Wait) : (delay d s).attClk = s.attClk := rfl
@[simp] theorem delay_attData (d : Wait) : (delay d s).attData = s.attData := rfl
@[simp] theorem delay_attLoad (d : Wait) : (delay d s).attLoad = s.attLoad := rfl
@[simp] theorem delay_prefCur (d : Wait) : (delay d s).prefCur = s.prefCur := rfl
@[simp] theorem delay_prefInit (d : Wait) : (delay d s).prefInit = s.prefInit := rfl
@[simp] theorem delay_prefEff (d : Wait) : (delay d s).prefEff = s.prefEff := rfl
@[simp] theorem delay_sector (d : Wait) : (delay d s).sector = s.sector := rfl
@[simp] theorem delay_device (d : Wait) : (delay d s).device = s.device := rfl
@[simp] theorem delay_resetPending (d : Wait) : (delay d s).resetPending = s.resetPending := rfl
@[simp] theorem delay_requests (d : Wait) : (delay d s).requests = s.requests := rfl
@[simp] theorem delay_inputs (d : Wait) : (delay d s).inputs = s.inputs := rfl
@[simp] theorem delay_trace (d : Wait) : (delay d s).trace = s.trace ++ [.delay d] := rfl

/-! ### pins -/

@[simp] theorem pins_tc (k d l : Bool) : (pins k d l s).tc = s.tc := rfl
@[simp] theorem pins_sw0 (k d l : Bool) : (pins k d l s).sw0 = s.sw0 := rfl
@[simp] theorem pins_sw1 (k d l : Bool) : (pins k d l s).sw1 = s.sw1 := rfl
@[simp] theorem pins_ledMode (k d l : Bool) : (pins k d l s).ledMode = s.ledMode := rfl
@[simp] theorem pins_rvcMode (k d l : Bool) : (pins k d l s).rvcMode = s.rvcMode := rfl
@[simp] theorem pins_attPrev (k d l : Bool) : (pins k d l s).attPrev = s.attPrev := rfl
@[simp] theorem pins_attCur (k d l : Bool) : (pins k d l s).attCur = s.attCur := rfl
@[simp] theorem pins_vuState (k d l : Bool) : (pins k d l s).vuState = s.vuState := rfl
@[simp] theorem pins_vuWin (k d l : Bool) : (pins k d l s).vuWin = s.vuWin := rfl
@[simp] theorem pins_vuWp (k d l : Bool) : (pins k d l s).vuWp = s.vuWp := rfl
@[simp] theorem pins_batt (k d l : Bool) : (pins k d l s).batt = s.batt := rfl
@[simp] theorem pins_pulseLvl (k d l : Bool) : (pins k d l s).pulseLvl = s.pulseLvl := rfl
@[simp] theorem pins_pulseDir (k d l : Bool) : (pins k d l s).pulseDir = s.pulseDir := rfl
@[simp] theorem pins_ovrState (k d l : Bool) : (pins k d l s).ovrState = s.ovrState := rfl
@[simp] theorem pins_ovrCnt (k d l : Bool) : (pins k d l s).ovrCnt = s.ovrCnt := rfl
@[simp] theorem pins_ovrIdx (k d l : Bool) : (pins k d l s).ovrIdx = s.ovrIdx := rfl
@[simp] theorem pins_ovrN (k d l : Bool) : (pins k d l s).ovrN = s.ovrN := rfl
@[simp] theorem pins_pwm (k d l : Bool) : (pins k d l s).pwm = s.pwm := rfl
@[simp] theorem pins_attClk (k d l : Bool) : (pins k d l s).attClk = k := rfl
@[simp] theorem pins_attData (k d l : Bool) : (pins k d l s).attData = d := rfl
@[simp] theorem pins_attLoad (k d l : Bool) : (pins k d l s).attLoad = l := rfl
@[simp] theorem pins_prefCur (k d l : Bool) : (pins k d l s).prefCur = s.prefCur := rfl
@[simp] theorem pins_prefInit (k d l : Bool) : (pins k d l s).prefInit = s.prefInit := rfl
@[simp] theorem pins_prefEff (k d l : Bool) : (pins k d l s).prefEff = s.prefEff := rfl
@[simp] theorem pins_sector (k d l : Bool) : (pins k d l s).sector = s.sector := rfl
@[simp] theorem pins_device (k d l : Bool) : (pins k d l s).device = deviceSees s.attClk s.attLoad k d l s.device := rfl
@[simp] theorem pins_resetPending (k d l : Bool) : (pins k d l s).resetPending = s.resetPending := rfl
@[simp] theorem pins_requests (k d l : Bool) : (pins k d l s).requests = s.requests := rfl
@[simp] theorem pins_inputs (k d l : Bool) : (pins k d l s).inputs = s.inputs := rfl
@[simp] theorem pins_trace (k d l : Bool) : (pins k d l s).trace = s.trace ++ [.ser k d l] := rfl

/-! ### raiseNv -/

@[simp] theorem raiseNv_tc (c : Condition) : (raiseNv c s).tc = s.tc := rfl
@[simp] theorem raiseNv_sw0 (c : Condition) : (raiseNv c s).sw0 = s.sw0 := rfl
@[simp] theorem raiseNv_sw1 (c : Condition) : (raiseNv c s).sw1 = s.sw1 := rfl
@[simp] theorem raiseNv_ledMode (c : Condition) : (raiseNv c s).ledMode = s.ledMode := rfl
@[simp] theorem raiseNv_rvcMode (c : Condition) : (raiseNv c s).rvcMode = s.rvcMode := rfl
@[simp] theorem raiseNv_attPrev (c : Condition) : (raiseNv c s).attPrev = s.attPrev := rfl
@[simp] theorem raiseNv_attCur (c : Condition) : (raiseNv c s).attCur = s.attCur := rfl
@[simp] theorem raiseNv_vuState (c : Condition) : (raiseNv c s).vuState = s.vuState := rfl
@[simp] theorem raiseNv_vuWin (c : Condition) : (raiseNv c s).vuWin = s.vuWin := rfl
@[simp] theorem raiseNv_vuWp (c : Condition) : (raiseNv c s).vuWp = s.vuWp := rfl
@[simp] theorem raiseNv_batt (c : Condition) : (raiseNv c s).batt = s.batt := rfl
@[simp] theorem raiseNv_pulseLvl (c : Condition) : (raiseNv c s).pulseLvl = s.pulseLvl := rfl
@[simp] theorem raiseNv_pulseDir (c : Condition) : (raiseNv c s).pulseDir = s.pulseDir := rfl
@[simp] theorem raiseNv_ovrState (c : Condition) : (raiseNv c s).ovrState = s.ovrState := rfl
@[simp] theorem raiseNv_ovrCnt (c : Condition) : (raiseNv c s).ovrCnt = s.ovrCnt := rfl
@[simp] theorem raiseNv_ovrIdx (c : Condition) : (raiseNv c s).ovrIdx = s.ovrIdx := rfl
@[simp] theorem raiseNv_ovrN (c : Condition) : (raiseNv c s).ovrN = s.ovrN := rfl
@[simp] theorem raiseNv_pwm (c : Condition) : (raiseNv c s).pwm = s.pwm := rfl
@[simp] theorem raiseNv_attClk (c : Condition) : (raiseNv c s).attClk = s.attClk := rfl
@[simp] theorem raiseNv_attData (c : Condition) : (raiseNv c s).attData = s.attData := rfl
@[simp] theorem raiseNv_attLoad (c : Condition) : (raiseNv c s).attLoad = s.attLoad := rfl
@[simp] theorem raiseNv_prefCur (c : Condition) : (raiseNv c s).prefCur = s.prefCur := rfl
@[simp] theorem raiseNv_prefInit (c : Condition) : (raiseNv c s).prefInit = false := rfl
@[simp] theorem raiseNv_prefEff (c : Condition) : (raiseNv c s).prefEff = s.prefEff := rfl
@[simp] theorem raiseNv_sector (c : Condition) : (raiseNv c s).sector = s.sector := rfl
@[simp] theorem raiseNv_device (c : Condition) : (raiseNv c s).device = s.device := rfl
@[simp] theorem raiseNv_resetPending (c : Condition) : (raiseNv c s).resetPending = s.resetPending := rfl
@[simp] theorem raiseNv_requests (c : Condition) : (raiseNv c s).requests = s.requests := rfl
@[simp] theorem raiseNv_inputs (c : Condition) : (raiseNv c s).inputs = s.inputs := rfl
@[simp] theorem raiseNv_trace (c : Condition) : (raiseNv c s).trace = s.trace ++ [.err c] := rfl

/-! ### prefFound -/

@[simp] theorem prefFound_tc (cur : BitVec 10) (eff : Byte) : (prefFound cur eff s).tc = s.tc := rfl
@[simp] theorem prefFound_sw0 (cur : BitVec 10) (eff : Byte) : (prefFound cur eff s).sw0 = s.sw0 := rfl
@[simp] theorem prefFound_sw1 (cur : BitVec 10) (eff : Byte) : (prefFound cur eff s).sw1 = s.sw1 := rfl
@[simp] theorem prefFound_ledMode (cur : BitVec 10) (eff : Byte) : (prefFound cur eff s).ledMode = s.ledMode := rfl
@[simp] theorem prefFound_rvcMode (cur : BitVec 10) (eff : Byte) : (prefFound cur eff s).rvcMode = s.rvcMode := rfl
@[simp] theorem prefFound_attPrev (cur : BitVec 10) (eff : Byte) : (prefFound cur eff s).attPrev = s.attPrev := rfl
@[simp] theorem prefFound_attCur (cur : BitVec 10) (eff : Byte) : (prefFound cur eff s).attCur = s.attCur := rfl
@[simp] theorem prefFound_vuState (cur : BitVec 10) (eff : Byte) : (prefFound cur eff s).vuState = s.vuState := rfl
@[simp] theorem prefFound_vuWin (cur : BitVec 10) (eff : Byte) : (prefFound cur eff s).vuWin = s.vuWin := rfl
@[simp] theorem prefFound_vuWp (cur : BitVec 10) (eff : Byte) : (prefFound cur eff s).vuWp = s.vuWp := rfl
@[simp] theorem prefFound_batt (cur : BitVec 10) (eff : Byte) : (prefFound cur eff s).batt = s.batt := rfl
@[simp] theorem prefFound_pulseLvl (cur : BitVec 10) (eff : Byte) : (prefFound cur eff s).pulseLvl = s.pulseLvl := rfl
@[simp] theorem prefFound_pulseDir (cur : BitVec 10) (eff : Byte) : (prefFound cur eff s).pulseDir = s.pulseDir := rfl
@[simp] theorem prefFound_ovrState (cur : BitVec 10) (eff : Byte) : (prefFound cur eff s).ovrState = s.ovrState := rfl
@[simp] theorem prefFound_ovrCnt (cur : BitVec 10) (eff : Byte) : (prefFound cur eff s).ovrCnt = s.ovrCnt := rfl
@[simp] theorem prefFound_ovrIdx (cur : BitVec 10) (eff : Byte) : (prefFound cur eff s).ovrIdx = s.ovrIdx := rfl
@[simp] theorem prefFound_ovrN (cur : BitVec 10) (eff : Byte) : (prefFound cur eff s).ovrN = s.ovrN := rfl
@[simp] theorem prefFound_pwm (cur : BitVec 10) (eff : Byte) : (prefFound cur eff s).pwm = s.pwm := rfl
@[simp] theorem prefFound_attClk (cur : BitVec 10) (eff : Byte) : (prefFound cur eff s).attClk = s.attClk := rfl
@[simp] theorem prefFound_attData (cur : BitVec 10) (eff : Byte) : (prefFound cur eff s).attData = s.attData := rfl
@[simp] theorem prefFound_attLoad (cur : BitVec 10) (eff : Byte) : (prefFound cur eff s).attLoad = s.attLoad := rfl
@[simp] theorem prefFound_prefCur (cur : BitVec 10) (eff : Byte) : (prefFound cur eff s).prefCur = cur := rfl
@[simp] theorem prefFound_prefInit (cur : BitVec 10) (eff : Byte) : (prefFound cur eff s).prefInit = true := rfl
@[simp] theorem prefFound_prefEff (cur : BitVec 10) (eff : Byte) : (prefFound cur eff s).prefEff = eff := rfl
@[simp] theorem prefFound_sector (cur : BitVec 10) (eff : Byte) : (prefFound cur eff s).sector = s.sector := rfl
@[simp] theorem prefFound_device (cur : BitVec 10) (eff : Byte) : (prefFound cur eff s).device = s.device := rfl
@[simp] theorem prefFound_resetPending (cur : BitVec 10) (eff : Byte) : (prefFound cur eff s).resetPending = s.resetPending := rfl
@[simp] theorem prefFound_requests (cur : BitVec 10) (eff : Byte) : (prefFound cur eff s).requests = s.requests := rfl
@[simp] theorem prefFound_inputs (cur : BitVec 10) (eff : Byte) : (prefFound cur eff s).inputs = s.inputs := rfl
@[simp] theorem prefFound_trace (cur : BitVec 10) (eff : Byte) : (prefFound cur eff s).trace = s.trace := rfl

/-! ### ovrStart -/

@[simp] theorem ovrStart_tc (n : BitVec 2) : (ovrStart n s).tc = s.tc := rfl
@[simp] theorem ovrStart_sw0 (n : BitVec 2) : (ovrStart n s).sw0 = s.sw0 := rfl
@[simp] theorem ovrStart_sw1 (n : BitVec 2) : (ovrStart n s).sw1 = s.sw1 := rfl
@[simp] theorem ovrStart_ledMode (n : BitVec 2) : (ovrStart n s).ledMode = s.ledMode := rfl
@[simp] theorem ovrStart_rvcMode (n : BitVec 2) : (ovrStart n s).rvcMode = s.rvcMode := rfl
@[simp] theorem ovrStart_attPrev (n : BitVec 2) : (ovrStart n s).attPrev = s.attPrev := rfl
@[simp] theorem ovrStart_attCur (n : BitVec 2) : (ovrStart n s).attCur = s.attCur := rfl
@[simp] theorem ovrStart_vuState (n : BitVec 2) : (ovrStart n s).vuState = s.vuState := rfl
@[simp] theorem ovrStart_vuWin (n : BitVec 2) : (ovrStart n s).vuWin = s.vuWin := rfl
@[simp] theorem ovrStart_vuWp (n : BitVec 2) : (ovrStart n s).vuWp = s.vuWp := rfl
@[simp] theorem ovrStart_batt (n : BitVec 2) : (ovrStart n s).batt = s.batt := rfl
@[simp] theorem ovrStart_pulseLvl (n : BitVec 2) : (ovrStart n s).pulseLvl = s.pulseLvl := rfl
@[simp] theorem ovrStart_pulseDir (n : BitVec 2) : (ovrStart n s).pulseDir = s.pulseDir := rfl
@[simp] theorem ovrStart_ovrState (n : BitVec 2) : (ovrStart n s).ovrState = .initialPause := rfl
@[simp] theorem ovrStart_ovrCnt (n : BitVec 2) : (ovrStart n s).ovrCnt = 0#4 := rfl
@[simp] theorem ovrStart_ovrIdx (n : BitVec 2) : (ovrStart n s).ovrIdx = 0#2 := rfl
@[simp] theorem ovrStart_ovrN (n : BitVec 2) : (ovrStart n s).ovrN = n := rfl
@[simp] theorem ovrStart_pwm (n : BitVec 2) : (ovrStart n s).pwm = s.pwm := rfl
@[simp] theorem ovrStart_attClk (n : BitVec 2) : (ovrStart n s).attClk = s.attClk := rfl
@[simp] theorem ovrStart_attData (n : BitVec 2) : (ovrStart n s).attData = s.attData := rfl
@[simp] theorem ovrStart_attLoad (n : BitVec 2) : (ovrStart n s).attLoad = s.attLoad := rfl
@[simp] theorem ovrStart_prefCur (n : BitVec 2) : (ovrStart n s).prefCur = s.prefCur := rfl
@[simp] theorem ovrStart_prefInit (n : BitVec 2) : (ovrStart n s).prefInit = s.prefInit := rfl
@[simp] theorem ovrStart_prefEff (n : BitVec 2) : (ovrStart n s).prefEff = s.prefEff := rfl
@[simp] theorem ovrStart_sector (n : BitVec 2) : (ovrStart n s).sector = s.sector := rfl
@[simp] theorem ovrStart_device (n : BitVec 2) : (ovrStart n s).device = s.device := rfl
@[simp] theorem ovrStart_resetPending (n : BitVec 2) : (ovrStart n s).resetPending = s.resetPending := rfl
@[simp] theorem ovrStart_requests (n : BitVec 2) : (ovrStart n s).requests = s.requests := rfl
@[simp] theorem ovrStart_inputs (n : BitVec 2) : (ovrStart n s).inputs = s.inputs := rfl
@[simp] theorem ovrStart_trace (n : BitVec 2) : (ovrStart n s).trace = s.trace := rfl

/-! ### restoreModes -/

@[simp] theorem restoreModes_tc (r : Option Byte) : (restoreModes r s).tc = s.tc := rfl
@[simp] theorem restoreModes_sw0 (r : Option Byte) : (restoreModes r s).sw0 = s.sw0 := rfl
@[simp] theorem restoreModes_sw1 (r : Option Byte) : (restoreModes r s).sw1 = s.sw1 := rfl
@[simp] theorem restoreModes_ledMode (r : Option Byte) : (restoreModes r s).ledMode = recordLed (r.getD 0x00#8) := rfl
@[simp] theorem restoreModes_rvcMode (r : Option Byte) : (restoreModes r s).rvcMode = recordRvc (r.getD 0x00#8) := rfl
@[simp] theorem restoreModes_attPrev (r : Option Byte) : (restoreModes r s).attPrev = s.attPrev := rfl
@[simp] theorem restoreModes_attCur (r : Option Byte) : (restoreModes r s).attCur = s.attCur := rfl
@[simp] theorem restoreModes_vuState (r : Option Byte) : (restoreModes r s).vuState = s.vuState := rfl
@[simp] theorem restoreModes_vuWin (r : Option Byte) : (restoreModes r s).vuWin = s.vuWin := rfl
@[simp] theorem restoreModes_vuWp (r : Option Byte) : (restoreModes r s).vuWp = s.vuWp := rfl
@[simp] theorem restoreModes_batt (r : Option Byte) : (restoreModes r s).batt = s.batt := rfl
@[simp] theorem restoreModes_pulseLvl (r : Option Byte) : (restoreModes r s).pulseLvl = s.pulseLvl := rfl
@[simp] theorem restoreModes_pulseDir (r : Option Byte) : (restoreModes r s).pulseDir = s.pulseDir := rfl
@[simp] theorem restoreModes_ovrState (r : Option Byte) : (restoreModes r s).ovrState = s.ovrState := rfl
@[simp] theorem restoreModes_ovrCnt (r : Option Byte) : (restoreModes r s).ovrCnt = s.ovrCnt := rfl
@[simp] theorem restoreModes_ovrIdx (r : Option Byte) : (restoreModes r s).ovrIdx = s.ovrIdx := rfl
@[simp] theorem restoreModes_ovrN (r : Option Byte) : (restoreModes r s).ovrN = s.ovrN := rfl
@[simp] theorem restoreModes_pwm (r : Option Byte) : (restoreModes r s).pwm = s.pwm := rfl
@[simp] theorem restoreModes_attClk (r : Option Byte) : (restoreModes r s).attClk = s.attClk := rfl
@[simp] theorem restoreModes_attData (r : Option Byte) : (restoreModes r s).attData = s.attData := rfl
@[simp] theorem restoreModes_attLoad (r : Option Byte) : (restoreModes r s).attLoad = s.attLoad := rfl
@[simp] theorem restoreModes_prefCur (r : Option Byte) : (restoreModes r s).prefCur = s.prefCur := rfl
@[simp] theorem restoreModes_prefInit (r : Option Byte) : (restoreModes r s).prefInit = s.prefInit := rfl
@[simp] theorem restoreModes_prefEff (r : Option Byte) : (restoreModes r s).prefEff = s.prefEff := rfl
@[simp] theorem restoreModes_sector (r : Option Byte) : (restoreModes r s).sector = s.sector := rfl
@[simp] theorem restoreModes_device (r : Option Byte) : (restoreModes r s).device = s.device := rfl
@[simp] theorem restoreModes_resetPending (r : Option Byte) : (restoreModes r s).resetPending = s.resetPending := rfl
@[simp] theorem restoreModes_requests (r : Option Byte) : (restoreModes r s).requests = s.requests := rfl
@[simp] theorem restoreModes_inputs (r : Option Byte) : (restoreModes r s).inputs = s.inputs := rfl
@[simp] theorem restoreModes_trace (r : Option Byte) : (restoreModes r s).trace = s.trace := rfl

/-! ### beginOp -/

@[simp] theorem beginOp_tc (rest : List Request) : (beginOp rest s).tc = s.tc := rfl
@[simp] theorem beginOp_sw0 (rest : List Request) : (beginOp rest s).sw0 = s.sw0 := rfl
@[simp] theorem beginOp_sw1 (rest : List Request) : (beginOp rest s).sw1 = s.sw1 := rfl
@[simp] theorem beginOp_ledMode (rest : List Request) : (beginOp rest s).ledMode = s.ledMode := rfl
@[simp] theorem beginOp_rvcMode (rest : List Request) : (beginOp rest s).rvcMode = s.rvcMode := rfl
@[simp] theorem beginOp_attPrev (rest : List Request) : (beginOp rest s).attPrev = s.attPrev := rfl
@[simp] theorem beginOp_attCur (rest : List Request) : (beginOp rest s).attCur = s.attCur := rfl
@[simp] theorem beginOp_vuState (rest : List Request) : (beginOp rest s).vuState = s.vuState := rfl
@[simp] theorem beginOp_vuWin (rest : List Request) : (beginOp rest s).vuWin = s.vuWin := rfl
@[simp] theorem beginOp_vuWp (rest : List Request) : (beginOp rest s).vuWp = s.vuWp := rfl
@[simp] theorem beginOp_batt (rest : List Request) : (beginOp rest s).batt = s.batt := rfl
@[simp] theorem beginOp_pulseLvl (rest : List Request) : (beginOp rest s).pulseLvl = s.pulseLvl := rfl
@[simp] theorem beginOp_pulseDir (rest : List Request) : (beginOp rest s).pulseDir = s.pulseDir := rfl
@[simp] theorem beginOp_ovrState (rest : List Request) : (beginOp rest s).ovrState = s.ovrState := rfl
@[simp] theorem beginOp_ovrCnt (rest : List Request) : (beginOp rest s).ovrCnt = s.ovrCnt := rfl
@[simp] theorem beginOp_ovrIdx (rest : List Request) : (beginOp rest s).ovrIdx = s.ovrIdx := rfl
@[simp] theorem beginOp_ovrN (rest : List Request) : (beginOp rest s).ovrN = s.ovrN := rfl
@[simp] theorem beginOp_pwm (rest : List Request) : (beginOp rest s).pwm = s.pwm := rfl
@[simp] theorem beginOp_attClk (rest : List Request) : (beginOp rest s).attClk = s.attClk := rfl
@[simp] theorem beginOp_attData (rest : List Request) : (beginOp rest s).attData = s.attData := rfl
@[simp] theorem beginOp_attLoad (rest : List Request) : (beginOp rest s).attLoad = s.attLoad := rfl
@[simp] theorem beginOp_prefCur (rest : List Request) : (beginOp rest s).prefCur = s.prefCur := rfl
@[simp] theorem beginOp_prefInit (rest : List Request) : (beginOp rest s).prefInit = s.prefInit := rfl
@[simp] theorem beginOp_prefEff (rest : List Request) : (beginOp rest s).prefEff = s.prefEff := rfl
@[simp] theorem beginOp_sector (rest : List Request) : (beginOp rest s).sector = s.sector := rfl
@[simp] theorem beginOp_device (rest : List Request) : (beginOp rest s).device = s.device := rfl
@[simp] theorem beginOp_resetPending (rest : List Request) : (beginOp rest s).resetPending = s.resetPending := rfl
@[simp] theorem beginOp_requests (rest : List Request) : (beginOp rest s).requests = rest := rfl
@[simp] theorem beginOp_inputs (rest : List Request) : (beginOp rest s).inputs = s.inputs := rfl
@[simp] theorem beginOp_trace (rest : List Request) : (beginOp rest s).trace = [] := rfl

/-! ### withSector -/

@[simp] theorem withSector_tc (m : Memory) : (withSector m s).tc = s.tc := rfl
@[simp] theorem withSector_sw0 (m : Memory) : (withSector m s).sw0 = s.sw0 := rfl
@[simp] theorem withSector_sw1 (m : Memory) : (withSector m s).sw1 = s.sw1 := rfl
@[simp] theorem withSector_ledMode (m : Memory) : (withSector m s).ledMode = s.ledMode := rfl
@[simp] theorem withSector_rvcMode (m : Memory) : (withSector m s).rvcMode = s.rvcMode := rfl
@[simp] theorem withSector_attPrev (m : Memory) : (withSector m s).attPrev = s.attPrev := rfl
@[simp] theorem withSector_attCur (m : Memory) : (withSector m s).attCur = s.attCur := rfl
@[simp] theorem withSector_vuState (m : Memory) : (withSector m s).vuState = s.vuState := rfl
@[simp] theorem withSector_vuWin (m : Memory) : (withSector m s).vuWin = s.vuWin := rfl
@[simp] theorem withSector_vuWp (m : Memory) : (withSector m s).vuWp = s.vuWp := rfl
@[simp] theorem withSector_batt (m : Memory) : (withSector m s).batt = s.batt := rfl
@[simp] theorem withSector_pulseLvl (m : Memory) : (withSector m s).pulseLvl = s.pulseLvl := rfl
@[simp] theorem withSector_pulseDir (m : Memory) : (withSector m s).pulseDir = s.pulseDir := rfl
@[simp] theorem withSector_ovrState (m : Memory) : (withSector m s).ovrState = s.ovrState := rfl
@[simp] theorem withSector_ovrCnt (m : Memory) : (withSector m s).ovrCnt = s.ovrCnt := rfl
@[simp] theorem withSector_ovrIdx (m : Memory) : (withSector m s).ovrIdx = s.ovrIdx := rfl
@[simp] theorem withSector_ovrN (m : Memory) : (withSector m s).ovrN = s.ovrN := rfl
@[simp] theorem withSector_pwm (m : Memory) : (withSector m s).pwm = s.pwm := rfl
@[simp] theorem withSector_attClk (m : Memory) : (withSector m s).attClk = s.attClk := rfl
@[simp] theorem withSector_attData (m : Memory) : (withSector m s).attData = s.attData := rfl
@[simp] theorem withSector_attLoad (m : Memory) : (withSector m s).attLoad = s.attLoad := rfl
@[simp] theorem withSector_prefCur (m : Memory) : (withSector m s).prefCur = s.prefCur := rfl
@[simp] theorem withSector_prefInit (m : Memory) : (withSector m s).prefInit = s.prefInit := rfl
@[simp] theorem withSector_prefEff (m : Memory) : (withSector m s).prefEff = s.prefEff := rfl
@[simp] theorem withSector_sector (m : Memory) : (withSector m s).sector = m := rfl
@[simp] theorem withSector_device (m : Memory) : (withSector m s).device = s.device := rfl
@[simp] theorem withSector_resetPending (m : Memory) : (withSector m s).resetPending = s.resetPending := rfl
@[simp] theorem withSector_requests (m : Memory) : (withSector m s).requests = s.requests := rfl
@[simp] theorem withSector_inputs (m : Memory) : (withSector m s).inputs = s.inputs := rfl
@[simp] theorem withSector_trace (m : Memory) : (withSector m s).trace = s.trace := rfl

/-! ### setAttCur -/

@[simp] theorem setAttCur_tc (l : Byte) : (setAttCur l s).tc = s.tc := rfl
@[simp] theorem setAttCur_sw0 (l : Byte) : (setAttCur l s).sw0 = s.sw0 := rfl
@[simp] theorem setAttCur_sw1 (l : Byte) : (setAttCur l s).sw1 = s.sw1 := rfl
@[simp] theorem setAttCur_ledMode (l : Byte) : (setAttCur l s).ledMode = s.ledMode := rfl
@[simp] theorem setAttCur_rvcMode (l : Byte) : (setAttCur l s).rvcMode = s.rvcMode := rfl
@[simp] theorem setAttCur_attPrev (l : Byte) : (setAttCur l s).attPrev = s.attPrev := rfl
@[simp] theorem setAttCur_attCur (l : Byte) : (setAttCur l s).attCur = some l := rfl
@[simp] theorem setAttCur_vuState (l : Byte) : (setAttCur l s).vuState = s.vuState := rfl
@[simp] theorem setAttCur_vuWin (l : Byte) : (setAttCur l s).vuWin = s.vuWin := rfl
@[simp] theorem setAttCur_vuWp (l : Byte) : (setAttCur l s).vuWp = s.vuWp := rfl
@[simp] theorem setAttCur_batt (l : Byte) : (setAttCur l s).batt = s.batt := rfl
@[simp] theorem setAttCur_pulseLvl (l : Byte) : (setAttCur l s).pulseLvl = s.pulseLvl := rfl
@[simp] theorem setAttCur_pulseDir (l : Byte) : (setAttCur l s).pulseDir = s.pulseDir := rfl
@[simp] theorem setAttCur_ovrState (l : Byte) : (setAttCur l s).ovrState = s.ovrState := rfl
@[simp] theorem setAttCur_ovrCnt (l : Byte) : (setAttCur l s).ovrCnt = s.ovrCnt := rfl
@[simp] theorem setAttCur_ovrIdx (l : Byte) : (setAttCur l s).ovrIdx = s.ovrIdx := rfl
@[simp] theorem setAttCur_ovrN (l : Byte) : (setAttCur l s).ovrN = s.ovrN := rfl
@[simp] theorem setAttCur_pwm (l : Byte) : (setAttCur l s).pwm = s.pwm := rfl
@[simp] theorem setAttCur_attClk (l : Byte) : (setAttCur l s).attClk = s.attClk := rfl
@[simp] theorem setAttCur_attData (l : Byte) : (setAttCur l s).attData = s.attData := rfl
@[simp] theorem setAttCur_attLoad (l : Byte) : (setAttCur l s).attLoad = s.attLoad := rfl
@[simp] theorem setAttCur_prefCur (l : Byte) : (setAttCur l s).prefCur = s.prefCur := rfl
@[simp] theorem setAttCur_prefInit (l : Byte) : (setAttCur l s).prefInit = s.prefInit := rfl
@[simp] theorem setAttCur_prefEff (l : Byte) : (setAttCur l s).prefEff = s.prefEff := rfl
@[simp] theorem setAttCur_sector (l : Byte) : (setAttCur l s).sector = s.sector := rfl
@[simp] theorem setAttCur_device (l : Byte) : (setAttCur l s).device = s.device := rfl
@[simp] theorem setAttCur_resetPending (l : Byte) : (setAttCur l s).resetPending = s.resetPending := rfl
@[simp] theorem setAttCur_requests (l : Byte) : (setAttCur l s).requests = s.requests := rfl
@[simp] theorem setAttCur_inputs (l : Byte) : (setAttCur l s).inputs = s.inputs := rfl
@[simp] theorem setAttCur_trace (l : Byte) : (setAttCur l s).trace = s.trace := rfl

/-! ### setAttPrev -/

@[simp] theorem setAttPrev_tc (g : Nat) : (setAttPrev g s).tc = s.tc := rfl
@[simp] theorem setAttPrev_sw0 (g : Nat) : (setAttPrev g s).sw0 = s.sw0 := rfl
@[simp] theorem setAttPrev_sw1 (g : Nat) : (setAttPrev g s).sw1 = s.sw1 := rfl
@[simp] theorem setAttPrev_ledMode (g : Nat) : (setAttPrev g s).ledMode = s.ledMode := rfl
@[simp] theorem setAttPrev_rvcMode (g : Nat) : (setAttPrev g s).rvcMode = s.rvcMode := rfl
@[simp] theorem setAttPrev_attPrev (g : Nat) : (setAttPrev g s).attPrev = BitVec.ofNat 7 g := rfl
@[simp] theorem setAttPrev_attCur (g : Nat) : (setAttPrev g s).attCur = s.attCur := rfl
@[simp] theorem setAttPrev_vuState (g : Nat) : (setAttPrev g s).vuState = s.vuState := rfl
@[simp] theorem setAttPrev_vuWin (g : Nat) : (setAttPrev g s).vuWin = s.vuWin := rfl
@[simp] theorem setAttPrev_vuWp (g : Nat) : (setAttPrev g s).vuWp = s.vuWp := rfl
@[simp] theorem setAttPrev_batt (g : Nat) : (setAttPrev g s).batt = s.batt := rfl
@[simp] theorem setAttPrev_pulseLvl (g : Nat) : (setAttPrev g s).pulseLvl = s.pulseLvl := rfl
@[simp] theorem setAttPrev_pulseDir (g : Nat) : (setAttPrev g s).pulseDir = s.pulseDir := rfl
@[simp] theorem setAttPrev_ovrState (g : Nat) : (setAttPrev g s).ovrState = s.ovrState := rfl
@[simp] theorem setAttPrev_ovrCnt (g : Nat) : (setAttPrev g s).ovrCnt = s.ovrCnt := rfl
@[simp] theorem setAttPrev_ovrIdx (g : Nat) : (setAttPrev g s).ovrIdx = s.ovrIdx := rfl
@[simp] theorem setAttPrev_ovrN (g : Nat) : (setAttPrev g s).ovrN = s.ovrN := rfl
@[simp] theorem setAttPrev_pwm (g : Nat) : (setAttPrev g s).pwm = s.pwm := rfl
@[simp] theorem setAttPrev_attClk (g : Nat) : (setAttPrev g s).attClk = s.attClk := rfl
@[simp] theorem setAttPrev_attData (g : Nat) : (setAttPrev g s).attData = s.attData := rfl
@[simp] theorem setAttPrev_attLoad (g : Nat) : (setAttPrev g s).attLoad = s.attLoad := rfl
@[simp] theorem setAttPrev_prefCur (g : Nat) : (setAttPrev g s).prefCur = s.prefCur := rfl
@[simp] theorem setAttPrev_prefInit (g : Nat) : (setAttPrev g s).prefInit = s.prefInit := rfl
@[simp] theorem setAttPrev_prefEff (g : Nat) : (setAttPrev g s).prefEff = s.prefEff := rfl
@[simp] theorem setAttPrev_sector (g : Nat) : (setAttPrev g s).sector = s.sector := rfl
@[simp] theorem setAttPrev_device (g : Nat) : (setAttPrev g s).device = s.device := rfl
@[simp] theorem setAttPrev_resetPending (g : Nat) : (setAttPrev g s).resetPending = s.resetPending := rfl
@[simp] theorem setAttPrev_requests (g : Nat) : (setAttPrev g s).requests = s.requests := rfl
@[simp] theorem setAttPrev_inputs (g : Nat) : (setAttPrev g s).inputs = s.inputs := rfl
@[simp] theorem setAttPrev_trace (g : Nat) : (setAttPrev g s).trace = s.trace := rfl

/-! ### setBatt -/

@[simp] theorem setBatt_tc (b : Byte) : (setBatt b s).tc = s.tc := rfl
@[simp] theorem setBatt_sw0 (b : Byte) : (setBatt b s).sw0 = s.sw0 := rfl
@[simp] theorem setBatt_sw1 (b : Byte) : (setBatt b s).sw1 = s.sw1 := rfl
@[simp] theorem setBatt_ledMode (b : Byte) : (setBatt b s).ledMode = s.ledMode := rfl
@[simp] theorem setBatt_rvcMode (b : Byte) : (setBatt b s).rvcMode = s.rvcMode := rfl
@[simp] theorem setBatt_attPrev (b : Byte) : (setBatt b s).attPrev = s.attPrev := rfl
@[simp] theorem setBatt_attCur (b : Byte) : (setBatt b s).attCur = s.attCur := rfl
@[simp] theorem setBatt_vuState (b : Byte) : (setBatt b s).vuState = s.vuState := rfl
@[simp] theorem setBatt_vuWin (b : Byte) : (setBatt b s).vuWin = s.vuWin := rfl
@[simp] theorem setBatt_vuWp (b : Byte) : (setBatt b s).vuWp = s.vuWp := rfl
@[simp] theorem setBatt_batt (b : Byte) : (setBatt b s).batt = some b := rfl
@[simp] theorem setBatt_pulseLvl (b : Byte) : (setBatt b s).pulseLvl = s.pulseLvl := rfl
@[simp] theorem setBatt_pulseDir (b : Byte) : (setBatt b s).pulseDir = s.pulseDir := rfl
@[simp] theorem setBatt_ovrState (b : Byte) : (setBatt b s).ovrState = s.ovrState := rfl
@[simp] theorem setBatt_ovrCnt (b : Byte) : (setBatt b s).ovrCnt = s.ovrCnt := rfl
@[simp] theorem setBatt_ovrIdx (b : Byte) : (setBatt b s).ovrIdx = s.ovrIdx := rfl
@[simp] theorem setBatt_ovrN (b : Byte) : (setBatt b s).ovrN = s.ovrN := rfl
@[simp] theorem setBatt_pwm (b : Byte) : (setBatt b s).pwm = s.pwm := rfl
@[simp] theorem setBatt_attClk (b : Byte) : (setBatt b s).attClk = s.attClk := rfl
@[simp] theorem setBatt_attData (b : Byte) : (setBatt b s).attData = s.attData := rfl
@[simp] theorem setBatt_attLoad (b : Byte) : (setBatt b s).attLoad = s.attLoad := rfl
@[simp] theorem setBatt_prefCur (b : Byte) : (setBatt b s).prefCur = s.prefCur := rfl
@[simp] theorem setBatt_prefInit (b : Byte) : (setBatt b s).prefInit = s.prefInit := rfl
@[simp] theorem setBatt_prefEff (b : Byte) : (setBatt b s).prefEff = s.prefEff := rfl
@[simp] theorem setBatt_sector (b : Byte) : (setBatt b s).sector = s.sector := rfl
@[simp] theorem setBatt_device (b : Byte) : (setBatt b s).device = s.device := rfl
@[simp] theorem setBatt_resetPending (b : Byte) : (setBatt b s).resetPending = s.resetPending := rfl
@[simp] theorem setBatt_requests (b : Byte) : (setBatt b s).requests = s.requests := rfl
@[simp] theorem setBatt_inputs (b : Byte) : (setBatt b s).inputs = s.inputs := rfl
@[simp] theorem setBatt_trace (b : Byte) : (setBatt b s).trace = s.trace := rfl

/-! ### prefAppended -/

@[simp] theorem prefAppended_tc (cur : BitVec 10) (eff : Byte) : (prefAppended cur eff s).tc = s.tc := rfl
@[simp] theorem prefAppended_sw0 (cur : BitVec 10) (eff : Byte) : (prefAppended cur eff s).sw0 = s.sw0 := rfl
@[simp] theorem prefAppended_sw1 (cur : BitVec 10) (eff : Byte) : (prefAppended cur eff s).sw1 = s.sw1 := rfl
@[simp] theorem prefAppended_ledMode (cur : BitVec 10) (eff : Byte) : (prefAppended cur eff s).ledMode = s.ledMode := rfl
@[simp] theorem prefAppended_rvcMode (cur : BitVec 10) (eff : Byte) : (prefAppended cur eff s).rvcMode = s.rvcMode := rfl
@[simp] theorem prefAppended_attPrev (cur : BitVec 10) (eff : Byte) : (prefAppended cur eff s).attPrev = s.attPrev := rfl
@[simp] theorem prefAppended_attCur (cur : BitVec 10) (eff : Byte) : (prefAppended cur eff s).attCur = s.attCur := rfl
@[simp] theorem prefAppended_vuState (cur : BitVec 10) (eff : Byte) : (prefAppended cur eff s).vuState = s.vuState := rfl
@[simp] theorem prefAppended_vuWin (cur : BitVec 10) (eff : Byte) : (prefAppended cur eff s).vuWin = s.vuWin := rfl
@[simp] theorem prefAppended_vuWp (cur : BitVec 10) (eff : Byte) : (prefAppended cur eff s).vuWp = s.vuWp := rfl
@[simp] theorem prefAppended_batt (cur : BitVec 10) (eff : Byte) : (prefAppended cur eff s).batt = s.batt := rfl
@[simp] theorem prefAppended_pulseLvl (cur : BitVec 10) (eff : Byte) : (prefAppended cur eff s).pulseLvl = s.pulseLvl := rfl
@[simp] theorem prefAppended_pulseDir (cur : BitVec 10) (eff : Byte) : (prefAppended cur eff s).pulseDir = s.pulseDir := rfl
@[simp] theorem prefAppended_ovrState (cur : BitVec 10) (eff : Byte) : (prefAppended cur eff s).ovrState = s.ovrState := rfl
@[simp] theorem prefAppended_ovrCnt (cur : BitVec 10) (eff : Byte) : (prefAppended cur eff s).ovrCnt = s.ovrCnt := rfl
@[simp] theorem prefAppended_ovrIdx (cur : BitVec 10) (eff : Byte) : (prefAppended cur eff s).ovrIdx = s.ovrIdx := rfl
@[simp] theorem prefAppended_ovrN (cur : BitVec 10) (eff : Byte) : (prefAppended cur eff s).ovrN = s.ovrN := rfl
@[simp] theorem prefAppended_pwm (cur : BitVec 10) (eff : Byte) : (prefAppended cur eff s).pwm = s.pwm := rfl
@[simp] theorem prefAppended_attClk (cur : BitVec 10) (eff : Byte) : (prefAppended cur eff s).attClk = s.attClk := rfl
@[simp] theorem prefAppended_attData (cur : BitVec 10) (eff : Byte) : (prefAppended cur eff s).attData = s.attData := rfl
@[simp] theorem prefAppended_attLoad (cur : BitVec 10) (eff : Byte) : (prefAppended cur eff s).attLoad = s.attLoad := rfl
@[simp] theorem prefAppended_prefCur (cur : BitVec 10) (eff : Byte) : (prefAppended cur eff s).prefCur = cur := rfl
@[simp] theorem prefAppended_prefInit (cur : BitVec 10) (eff : Byte) : (prefAppended cur eff s).prefInit = s.prefInit := rfl
@[simp] theorem prefAppended_prefEff (cur : BitVec 10) (eff : Byte) : (prefAppended cur eff s).prefEff = eff := rfl
@[simp] theorem prefAppended_sector (cur : BitVec 10) (eff : Byte) : (prefAppended cur eff s).sector = s.sector := rfl
@[simp] theorem prefAppended_device (cur : BitVec 10) (eff : Byte) : (prefAppended cur eff s).device = s.device := rfl
@[simp] theorem prefAppended_resetPending (cur : BitVec 10) (eff : Byte) : (prefAppended cur eff s).resetPending = s.resetPending := rfl
@[simp] theorem prefAppended_requests (cur : BitVec 10) (eff : Byte) : (prefAppended cur eff s).requests = s.requests := rfl
@[simp] theorem prefAppended_inputs (cur : BitVec 10) (eff : Byte) : (prefAppended cur eff s).inputs = s.inputs := rfl
@[simp] theorem prefAppended_trace (cur : BitVec 10) (eff : Byte) : (prefAppended cur eff s).trace = s.trace := rfl

/-! ### setSwitchRegs -/

@[simp] theorem setSwitchRegs_tc (w : SwitchId) (r : SwitchRegs) : (setSwitchRegs w r s).tc = s.tc := by cases w <;> rfl
@[simp] theorem setSwitchRegs_ledMode (w : SwitchId) (r : SwitchRegs) : (setSwitchRegs w r s).ledMode = s.ledMode := by cases w <;> rfl
@[simp] theorem setSwitchRegs_rvcMode (w : SwitchId) (r : SwitchRegs) : (setSwitchRegs w r s).rvcMode = s.rvcMode := by cases w <;> rfl
@[simp] theorem setSwitchRegs_attPrev (w : SwitchId) (r : SwitchRegs) : (setSwitchRegs w r s).attPrev = s.attPrev := by cases w <;> rfl
@[simp] theorem setSwitchRegs_attCur (w : SwitchId) (r : SwitchRegs) : (setSwitchRegs w r s).attCur = s.attCur := by cases w <;> rfl
@[simp] theorem setSwitchRegs_vuState (w : SwitchId) (r : SwitchRegs) : (setSwitchRegs w r s).vuState = s.vuState := by cases w <;> rfl
@[simp] theorem setSwitchRegs_vuWin (w : SwitchId) (r : SwitchRegs) : (setSwitchRegs w r s).vuWin = s.vuWin := by cases w <;> rfl
@[simp] theorem setSwitchRegs_vuWp (w : SwitchId) (r : SwitchRegs) : (setSwitchRegs w r s).vuWp = s.vuWp := by cases w <;> rfl
@[simp] theorem setSwitchRegs_batt (w : SwitchId) (r : SwitchRegs) : (setSwitchRegs w r s).batt = s.batt := by cases w <;> rfl
@[simp] theorem setSwitchRegs_pulseLvl (w : SwitchId) (r : SwitchRegs) : (setSwitchRegs w r s).pulseLvl = s.pulseLvl := by cases w <;> rfl
@[simp] theorem setSwitchRegs_pulseDir (w : SwitchId) (r : SwitchRegs) : (setSwitchRegs w r s).pulseDir = s.pulseDir := by cases w <;> rfl
@[simp] theorem setSwitchRegs_ovrState (w : SwitchId) (r : SwitchRegs) : (setSwitchRegs w r s).ovrState = s.ovrState := by cases w <;> rfl
@[simp] theorem setSwitchRegs_ovrCnt (w : SwitchId) (r : SwitchRegs) : (setSwitchRegs w r s).ovrCnt = s.ovrCnt := by cases w <;> rfl
@[simp] theorem setSwitchRegs_ovrIdx (w : SwitchId) (r : SwitchRegs) : (setSwitchRegs w r s).ovrIdx = s.ovrIdx := by cases w <;> rfl
@[simp] theorem setSwitchRegs_ovrN (w : SwitchId) (r : SwitchRegs) : (setSwitchRegs w r s).ovrN = s.ovrN := by cases w <;> rfl
@[simp] theorem setSwitchRegs_pwm (w : SwitchId) (r : SwitchRegs) : (setSwitchRegs w r s).pwm = s.pwm := by cases w <;> rfl
@[simp] theorem setSwitchRegs_attClk (w : SwitchId) (r : SwitchRegs) : (setSwitchRegs w r s).attClk = s.attClk := by cases w <;> rfl
@[simp] theorem setSwitchRegs_attData (w : SwitchId) (r : SwitchRegs) : (setSwitchRegs w r s).attData = s.attData := by cases w <;> rfl
@[simp] theorem setSwitchRegs_attLoad (w : SwitchId) (r : SwitchRegs) : (setSwitchRegs w r s).attLoad = s.attLoad := by cases w <;> rfl
@[simp] theorem setSwitchRegs_prefCur (w : SwitchId) (r : SwitchRegs) : (setSwitchRegs w r s).prefCur = s.prefCur := by cases w <;> rfl
@[simp] theorem setSwitchRegs_prefInit (w : SwitchId) (r : SwitchRegs) : (setSwitchRegs w r s).prefInit = s.prefInit := by cases w <;> rfl
@[simp] theorem setSwitchRegs_prefEff (w : SwitchId) (r : SwitchRegs) : (setSwitchRegs w r s).prefEff = s.prefEff := by cases w <;> rfl
@[simp] theorem setSwitchRegs_sector (w : SwitchId) (r : SwitchRegs) : (setSwitchRegs w r s).sector = s.sector := by cases w <;> rfl
@[simp] theorem setSwitchRegs_device (w : SwitchId) (r : SwitchRegs) : (setSwitchRegs w r s).device = s.device := by cases w <;> rfl
@[simp] theorem setSwitchRegs_resetPending (w : SwitchId) (r : SwitchRegs) : (setSwitchRegs w r s).resetPending = s.resetPending := by cases w <;> rfl
@[simp] theorem setSwitchRegs_requests (w : SwitchId) (r : SwitchRegs) : (setSwitchRegs w r s).requests = s.requests := by cases w <;> rfl
@[simp] theorem setSwitchRegs_inputs (w : SwitchId) (r : SwitchRegs) : (setSwitchRegs w r s).inputs = s.inputs := by cases w <;> rfl
@[simp] theorem setSwitchRegs_trace (w : SwitchId) (r : SwitchRegs) : (setSwitchRegs w r s).trace = s.trace := by cases w <;> rfl
@[simp] theorem switchRegs_setSwitchRegs (w : SwitchId) (r : SwitchRegs) : switchRegs w (setSwitchRegs w r s) = r := by cases w <;> rfl
theorem switchRegs_setSwitchRegs_ne (v w : SwitchId) (r : SwitchRegs) (h : v ≠ w) :
    switchRegs v (setSwitchRegs w r s) = switchRegs v s := by cases v <;> cases w <;> first | rfl | exact absurd rfl h
@[simp] theorem setSwitchRegs_sw0_sw0 (r : SwitchRegs) : (setSwitchRegs .sw0 r s).sw0 = r := rfl
@[simp] theorem setSwitchRegs_sw0_sw1 (r : SwitchRegs) : (setSwitchRegs .sw0 r s).sw1 = s.sw1 := rfl
@[simp] theorem setSwitchRegs_sw1_sw0 (r : SwitchRegs) : (setSwitchRegs .sw1 r s).sw0 = s.sw0 := rfl
@[simp] theorem setSwitchRegs_sw1_sw1 (r : SwitchRegs) : (setSwitchRegs .sw1 r s).sw1 = r := rfl
@[simp] theorem switchRegs_emit (w : SwitchId) (es : List Event) : switchRegs w (emit es s) = switchRegs w s := by cases w <;> rfl
@[simp] theorem switchRegs_withInputs (w : SwitchId) (p : Inputs) : switchRegs w (withInputs p s) = switchRegs w s := by cases w <;> rfl

/-! ### Merging updates of one kind -/

@[simp] theorem emit_nil : emit [] s = s := by simp [emit]
theorem emit_emit (es fs : List Event) : emit fs (emit es s) = emit (es ++ fs) s := by simp [emit]
@[simp] theorem withInputs_withInputs (p q : Inputs) : withInputs q (withInputs p s) = withInputs q s := rfl
@[simp] theorem withInputs_inputs_self : withInputs s.inputs s = s := rfl
theorem withInputs_emit (p : Inputs) (es : List Event) : withInputs p (emit es s) = emit es (withInputs p s) := rfl

end Sys2Proof.Machine
end

