-- ==== Sys2Proof/Laws/Ops.lean ====
section
/-! SUPPORT. One lemma per shared operation that says once what it can do: if it answers, then this is the answer. -/

namespace Sys2Proof.Machine

/-! ### Sequencing -/

@[simp] theorem andThen_next (s : State) (f : State → Result) : andThen (.next s) f = f s := rfl
@[simp] theorem andThen_fault (e : Fault) (f : State → Result) : andThen (.fault e) f = .fault e := rfl
@[simp] theorem andThen_refused (e : Refusal) (f : State → Result) : andThen (.refused e) f = .refused e := rfl

/-- A sequence answers a next state exactly when both its parts do. -/
theorem andThen_eq_next {r : Result} {f : State → Result} {t : State} :
    andThen r f = .next t ↔ ∃ u, r = .next u ∧ f u = .next t := by
  cases r <;> simp [andThen]

theorem andThen_assoc (r : Result) (f g : State → Result) :
    andThen (andThen r f) g = andThen r fun s => andThen (f s) g := by
  cases r <;> rfl

/-! ### Conversions -/

/-- A conversion completes with the channel's next reading, one ADC event, and nothing else changed. -/
theorem adcRead_eq_ok {ch : Channel} {s : State} {b : Byte} {t : State} :
    adcRead ch s = .ok (b, t) ↔
      (nextReading ch s.inputs).1 = some b ∧
        t = emit [.adc ch b] (withInputs (nextReading ch s.inputs).2 s) := by
  unfold adcRead
  split
  · rename_i h; simp [h]
  · rename_i c h
    simp only [h, Except.ok.injEq, Prod.mk.injEq, Option.some.injEq]
    constructor
    · rintro ⟨rfl, rfl⟩; exact ⟨rfl, rfl⟩
    · rintro ⟨rfl, rfl⟩; exact ⟨rfl, rfl⟩

/-- The only way a conversion fails is that it never completes. -/
theorem adcRead_eq_error {ch : Channel} {s : State} {e : Fault} :
    adcRead ch s = .error e ↔ (nextReading ch s.inputs).1 = none ∧ e = .sensorHang ch := by
  unfold adcRead
  split
  · rename_i h; simp [h, eq_comm]
  · rename_i h; simp [h]

/-- Consecutive conversions change the inputs and the trace, nothing else, and leave one ADC event per reading. -/
theorem adcReads_ok {ch : Channel} {n : Nat} {s : State} {bs : List Byte} {t : State}
    (h : adcReads ch n s = .ok (bs, t)) :
    bs.length = n ∧ t = emit (bs.map (.adc ch)) (withInputs t.inputs s) := by
  induction n generalizing s bs t with
  | zero =>
    simp only [adcReads, Except.ok.injEq, Prod.mk.injEq] at h
    obtain ⟨rfl, rfl⟩ := h
    exact ⟨rfl, by simp⟩
  | succ n ih =>
    simp only [adcReads] at h
    split at h
    · cases h
    · rename_i b s1 h1
      split at h
      · cases h
      · rename_i cs s2 h2
        simp only [Except.ok.injEq, Prod.mk.injEq] at h
        obtain ⟨rfl, rfl⟩ := h
        obtain ⟨hl, ht⟩ := ih h2
        obtain ⟨-, rfl⟩ := adcRead_eq_ok.1 h1
        refine ⟨by simp [hl], ht.trans ?_⟩
        simp [emit, withInputs]

/-- The only way consecutive conversions fail is that one never completes. -/
theorem adcReads_error {ch : Channel} {n : Nat} {s : State} {e : Fault}
    (h : adcReads ch n s = .error e) : e = .sensorHang ch := by
  induction n generalizing s with
  | zero => cases h
  | succ n ih =>
    simp only [adcReads] at h
    split at h
    · rename_i h1
      cases h
      exact (adcRead_eq_error.1 h1).2
    · split at h
      · rename_i h2; cases h; exact ih h2
      · cases h

/-! ### Switch levels -/

theorem pinRead_fst (w : SwitchId) (s : State) : (pinRead w s).1 = (nextLevel w s.inputs).1 := rfl

theorem pinRead_snd (w : SwitchId) (s : State) :
    (pinRead w s).2 = emit [.pin w (nextLevel w s.inputs).1] (withInputs (nextLevel w s.inputs).2 s) := rfl

/-! ### NV accesses -/

/-- A successful read gives the slot's content and one NVR event. -/
theorem nvRead_ok {a : BitVec 9} {s : State} (h : (nextOk s.inputs).1 = true) :
    nvRead a s = (some (Memory.get s.sector a.toNat),
      emit [.nvr a (some (Memory.get s.sector a.toNat))] (withInputs (nextOk s.inputs).2 s)) := by
  simp [nvRead, h]

/-- A failed read gives no value and one NVR event. -/
theorem nvRead_fail {a : BitVec 9} {s : State} (h : (nextOk s.inputs).1 = false) :
    nvRead a s = (none, emit [.nvr a none] (withInputs (nextOk s.inputs).2 s)) := by
  simp [nvRead, h]

/-- A successful write programs its slot. -/
theorem nvWrite_ok {a : BitVec 9} {v : Byte} {s : State} (h : (nextOk s.inputs).1 = true) :
    nvWrite a v s = (true, emit [.nvw a v true]
      (withSector (Memory.set s.sector a.toNat v) (withInputs (nextOk s.inputs).2 s))) := by
  simp [nvWrite, h, programmed]

/-- A failed write leaves a drawn byte in its slot. -/
theorem nvWrite_fail {a : BitVec 9} {v : Byte} {s : State} (h : (nextOk s.inputs).1 = false) :
    nvWrite a v s = (false, emit [.nvw a v false]
      (withSector (Memory.set s.sector a.toNat (nextLeft (nextOk s.inputs).2).1)
        (withInputs (nextLeft (nextOk s.inputs).2).2 s))) := by
  simp [nvWrite, h]

/-- A successful erase leaves every slot erased. -/
theorem nvErase_ok {s : State} (h : (nextOk s.inputs).1 = true) :
    nvErase s = (true, emit [.nve true] (withSector [] (withInputs (nextOk s.inputs).2 s))) := by
  simp [nvErase, h]

/-- A failed erase leaves a drawn byte in every slot. -/
theorem nvErase_fail {s : State} (h : (nextOk s.inputs).1 = false) :
    nvErase s = (false, emit [.nve false]
      (withSector (drawnSlots 0 512 (nextOk s.inputs).2).1
        (withInputs (drawnSlots 0 512 (nextOk s.inputs).2).2 s))) := by
  simp [nvErase, h, Config.nvSlots]

end Sys2Proof.Machine
end

