-- ==== Sys2Proof/Laws/Frames.lean ====
section
/-! SUPPORT. Frames of the operations the meanings share: each says which registers the operation may write, and that it
only adds to the trace. -/

namespace Sys2Proof.Machine

/-! ### The serialiser and the ramp -/

/-- A bit of a frame writes the serial lines; the device sees them. -/
theorem serialBit_frame (b : Bool) (s : State) :
    ∃ dev, serialBit b s =
      { s with
        attClk := false, attData := b, attLoad := false, device := dev
        trace := s.trace ++
          [.ser false b false, .delay .setup, .ser true b false, .delay .hold, .ser false b false] } :=
  ⟨_, by simp only [serialBit, pins, delay, emit, List.append_assoc, List.cons_append, List.nil_append]; rfl⟩

theorem serialBits_frame (w : Word) (n : Nat) (s : State) :
    ∃ k d l dev es, serialBits w n s =
      { s with attClk := k, attData := d, attLoad := l, device := dev, trace := s.trace ++ es } := by
  induction n generalizing s with
  | zero => exact ⟨s.attClk, s.attData, s.attLoad, s.device, [], by simp [serialBits]⟩
  | succ n ih =>
    obtain ⟨dev0, h0⟩ := serialBit_frame (w.getLsbD n) s
    obtain ⟨k, d, l, dev, es, h⟩ := ih (serialBit (w.getLsbD n) s)
    refine ⟨k, d, l, dev, [.ser false (w.getLsbD n) false, .delay .setup, .ser true (w.getLsbD n) false,
      .delay .hold, .ser false (w.getLsbD n) false] ++ es, ?_⟩
    rw [serialBits, h, h0]
    simp

/-- STEPSET writes ATT_CUR and the serial lines (R220), which it leaves at their idle levels (R50). -/
theorem stepSet_frame (level : Byte) (s : State) :
    ∃ dev es, stepSet level s =
      { s with
        attCur := some level, attClk := false, attData := true, attLoad := true
        device := dev, trace := s.trace ++ es } := by
  obtain ⟨k, d, l, dev, es, h⟩ := serialBits_frame (frameWord level) 16 (pins false s.attData false s)
  unfold stepSet serialFrame
  rw [h]
  simp only [pins, emit, setAttCur, List.append_assoc]
  exact ⟨_, _, rfl⟩

theorem sendFrames_frame (first : Bool) (ls : List Nat) (s : State) :
    ∃ cur k d l dev es, sendFrames first ls s =
      { s with
        attCur := cur, attClk := k, attData := d, attLoad := l
        device := dev, trace := s.trace ++ es } := by
  induction ls generalizing first s with
  | nil => exact ⟨s.attCur, s.attClk, s.attData, s.attLoad, s.device, [], by simp [sendFrames]⟩
  | cons x xs ih =>
    simp only [sendFrames]
    obtain ⟨dev0, es0, h0⟩ := stepSet_frame (BitVec.ofNat 8 x) (if first then s else delay .step s)
    obtain ⟨cur, k, d, l, dev, es, h⟩ :=
      ih false (stepSet (BitVec.ofNat 8 x) (if first then s else delay .step s))
    rw [h, h0]
    cases first
    · exact ⟨cur, k, d, l, dev, [.delay .step] ++ (es0 ++ es), by simp [delay, emit]⟩
    · exact ⟨cur, k, d, l, dev, es0 ++ es, by simp⟩

/-- The frames of an update write ATT_CUR and the serial lines. -/
theorem sendUpdate_frame (force : Bool) (goal : Nat) (s : State) :
    ∃ cur k d l dev es, sendUpdate force goal s =
      { s with
        attCur := cur, attClk := k, attData := d, attLoad := l
        device := dev, trace := s.trace ++ es } := by
  cases force
  · exact sendFrames_frame true _ s
  · obtain ⟨dev, es, h⟩ := stepSet_frame (BitVec.ofNat 8 goal) s
    exact ⟨_, _, _, _, dev, es, h⟩

/-- RVCUPD answers a next state exactly when its conversion completes, and this is that state (R200). -/
theorem rvcUpdate_eq_next {force : Bool} {s t : State} :
    rvcUpdate force s = .next t ↔
      ∃ raw s1, adcRead .rvc s = .ok (raw, s1) ∧
        t = setAttPrev (target raw s1.rvcMode) (sendUpdate force (target raw s1.rvcMode) s1) := by
  unfold rvcUpdate
  split
  · rename_i h; simp [h]
  · rename_i raw s1 h
    simp only [h, Except.ok.injEq, Prod.mk.injEq, Host.Outcome.next.injEq]
    constructor
    · rintro rfl; exact ⟨raw, s1, ⟨rfl, rfl⟩, rfl⟩
    · rintro ⟨_, _, ⟨rfl, rfl⟩, rfl⟩; rfl

/-! ### The samples -/

/-- VUSAMP answers a next state exactly when its 20 conversions complete (R270). -/
theorem vuSample_eq_next {s t : State} :
    vuSample s = .next t ↔ ∃ bs s1, adcReads .audio 20 s = .ok (bs, s1) ∧ t = vuTake bs s1 := by
  unfold vuSample
  simp only [Config.vuReads]
  split
  · rename_i h; simp [h]
  · rename_i bs s1 h
    simp only [h, Except.ok.injEq, Prod.mk.injEq, Host.Outcome.next.injEq]
    constructor
    · rintro rfl; exact ⟨bs, s1, ⟨rfl, rfl⟩, rfl⟩
    · rintro ⟨_, _, ⟨rfl, rfl⟩, rfl⟩; rfl

/-- BATSAMP answers a next state exactly when its conversion completes (R290). -/
theorem batSample_eq_next {s t : State} :
    batSample s = .next t ↔ ∃ b s1, adcRead .batt s = .ok (b, s1) ∧ t = setBatt b s1 := by
  unfold batSample
  split
  · rename_i h; simp [h]
  · rename_i b s1 h
    simp only [h, Except.ok.injEq, Prod.mk.injEq, Host.Outcome.next.injEq]
    constructor
    · rintro rfl; exact ⟨b, s1, ⟨rfl, rfl⟩, rfl⟩
    · rintro ⟨_, _, ⟨rfl, rfl⟩, rfl⟩; rfl

/-! ### The display -/

theorem showPulse_frame (s : State) :
    ∃ lvl dir c, showPulse s =
      { s with pulseLvl := lvl, pulseDir := dir, pwm := c, trace := s.trace ++ [.pwm c] } :=
  ⟨_, _, _, rfl⟩

theorem renderMode_frame (b : Byte) (s : State) :
    ∃ lvl dir c es, renderMode b s =
      { s with pulseLvl := lvl, pulseDir := dir, pwm := c, trace := s.trace ++ es } := by
  have hw : ∀ c, ∃ lvl dir c' es, pwmWrite c s =
      { s with pulseLvl := lvl, pulseDir := dir, pwm := c', trace := s.trace ++ es } :=
    fun c => ⟨s.pulseLvl, s.pulseDir, c, [.pwm c], rfl⟩
  have hn : ∃ lvl dir c es, s =
      { s with pulseLvl := lvl, pulseDir := dir, pwm := c, trace := s.trace ++ es } :=
    ⟨s.pulseLvl, s.pulseDir, s.pwm, [], by simp⟩
  obtain ⟨lvl, dir, c, hp⟩ := showPulse_frame s
  unfold renderMode
  split
  · split <;> first | exact hw _ | exact ⟨lvl, dir, c, _, hp⟩
  all_goals first | exact hw _ | exact hn

theorem overrideStep_frame (s : State) :
    ∃ o k i c, overrideStep s =
      { s with ovrState := o, ovrCnt := k, ovrIdx := i, pwm := c, trace := s.trace ++ [.pwm c] } := by
  unfold overrideStep
  dsimp only
  split
  · unfold ovrAdvance
    split
    all_goals exact ⟨_, _, _, _, rfl⟩
  · exact ⟨_, _, _, _, rfl⟩

theorem renderNormal_frame (b : Byte) (s : State) :
    ∃ lvl dir c es, renderNormal b s =
      { s with pulseLvl := lvl, pulseDir := dir, pwm := c, trace := s.trace ++ es } := by
  unfold renderNormal
  split
  · obtain ⟨lvl, dir, c, hp⟩ := showPulse_frame s
    exact ⟨lvl, dir, c, _, hp⟩
  · exact renderMode_frame b s

/-- RENDER writes the LED, the pulse and the override registers, and nothing else (R240). -/
theorem render_frame {s t : State} (h : render s = .next t) :
    ∃ o k i lvl dir c es, t =
      { s with
        ovrState := o, ovrCnt := k, ovrIdx := i, pulseLvl := lvl, pulseDir := dir, pwm := c
        trace := s.trace ++ es } := by
  unfold render at h
  split at h
  · obtain ⟨o, k, i, c, ho⟩ := overrideStep_frame s
    cases h
    exact ⟨o, k, i, s.pulseLvl, s.pulseDir, c, _, ho⟩
  · split at h
    · cases h
    · rename_i b _
      obtain ⟨lvl, dir, c, es, hn⟩ := renderNormal_frame b s
      cases h
      exact ⟨s.ovrState, s.ovrCnt, s.ovrIdx, lvl, dir, c, es, hn⟩

/-! ### The preference log -/

theorem NvDraws.refl (p : Inputs) : NvDraws p p := ⟨p.nvOk, p.nvLeft, p.drawn, rfl⟩

theorem NvDraws.trans {p q r : Inputs} (h : NvDraws p q) (k : NvDraws q r) : NvDraws p r := by
  obtain ⟨o, l, n, rfl⟩ := h
  obtain ⟨o', l', n', rfl⟩ := k
  exact ⟨o', l', n', rfl⟩

theorem nextOk_draws (p : Inputs) : NvDraws p (nextOk p).2 := by
  unfold nextOk
  split
  · exact ⟨_, p.nvLeft, p.drawn, rfl⟩
  · exact ⟨p.nvOk, p.nvLeft, _, rfl⟩

theorem nextLeft_draws (p : Inputs) : NvDraws p (nextLeft p).2 := by
  unfold nextLeft
  split
  · exact ⟨p.nvOk, _, p.drawn, rfl⟩
  · exact ⟨p.nvOk, p.nvLeft, _, rfl⟩

theorem drawnSlots_draws (a n : Nat) (p : Inputs) : NvDraws p (drawnSlots a n p).2 := by
  induction n generalizing a p with
  | zero => exact NvDraws.refl p
  | succ n ih => exact (nextLeft_draws p).trans (ih (a + 1) _)

theorem PrefOnly.refl (s : State) : PrefOnly s s :=
  ⟨s.prefCur, s.prefInit, s.prefEff, s.sector, s.inputs, [], NvDraws.refl _, by simp⟩

theorem PrefOnly.trans {s t u : State} (h : PrefOnly s t) (k : PrefOnly t u) : PrefOnly s u := by
  obtain ⟨c, i, e, m, p, es, hp, rfl⟩ := h
  obtain ⟨c', i', e', m', p', es', hp', rfl⟩ := k
  exact ⟨c', i', e', m', p', es ++ es', hp.trans hp', by simp⟩

theorem nvRead_prefOnly (a : BitVec 9) (s : State) : PrefOnly s (nvRead a s).2 :=
  ⟨s.prefCur, s.prefInit, s.prefEff, s.sector, _, _, nextOk_draws _, rfl⟩

theorem nvWrite_prefOnly (a : BitVec 9) (v : Byte) (s : State) : PrefOnly s (nvWrite a v s).2 := by
  unfold nvWrite
  dsimp only
  split
  · exact ⟨s.prefCur, s.prefInit, s.prefEff, _, _, _, nextOk_draws _, rfl⟩
  · exact ⟨s.prefCur, s.prefInit, s.prefEff, _, _, _, (nextOk_draws _).trans (nextLeft_draws _), rfl⟩

theorem nvErase_prefOnly (s : State) : PrefOnly s (nvErase s).2 := by
  have key : ∀ l : Memory × Inputs, NvDraws s.inputs l.2 →
      PrefOnly s (emit [.nve false] (withSector l.1 (withInputs l.2 s))) :=
    fun l hl => ⟨s.prefCur, s.prefInit, s.prefEff, l.1, l.2, _, hl, rfl⟩
  by_cases h : (nextOk s.inputs).1 = true
  · rw [nvErase_ok h]
    exact ⟨s.prefCur, s.prefInit, s.prefEff, [], _, _, nextOk_draws _, rfl⟩
  · rw [nvErase_fail (by simpa using h)]
    exact key _ ((nextOk_draws _).trans (drawnSlots_draws _ _ _))

theorem raiseNv_prefOnly (c : Condition) (s : State) : PrefOnly s (raiseNv c s) :=
  ⟨s.prefCur, false, s.prefEff, s.sector, s.inputs, _, NvDraws.refl _, rfl⟩

theorem prefFound_prefOnly (cur : BitVec 10) (eff : Byte) (s : State) : PrefOnly s (prefFound cur eff s) :=
  ⟨cur, true, eff, s.sector, s.inputs, [], NvDraws.refl _, by simp [prefFound]⟩

/-- PREF_CUR and PREF_EFF alone. -/
theorem prefAppended_prefOnly (cur : BitVec 10) (eff : Byte) (s : State) : PrefOnly s (prefAppended cur eff s) :=
  ⟨cur, s.prefInit, eff, s.sector, s.inputs, [], NvDraws.refl _, by simp [prefAppended]⟩

theorem prefInitialise_prefOnly (s : State) : PrefOnly s (prefInitialise s).2 := by
  have hw := nvWrite_prefOnly 0#9 0x00#8 s
  unfold prefInitialise
  dsimp only
  split
  · exact hw.trans (prefFound_prefOnly 1#10 0x00#8 _)
  · exact hw.trans (raiseNv_prefOnly _ _)

theorem prefScan_prefOnly (n : Nat) (s : State) : PrefOnly s (prefScan n s).2 := by
  induction n generalizing s with
  | zero => exact prefFound_prefOnly _ _ s
  | succ n ih =>
    have hr := nvRead_prefOnly (BitVec.ofNat 9 n) s
    unfold prefScan
    dsimp only
    split
    · exact hr.trans (raiseNv_prefOnly _ _)
    · split
      · exact hr.trans (prefFound_prefOnly _ _ _)
      · exact hr.trans (ih _)

theorem prefRead_prefOnly (s : State) : PrefOnly s (prefRead s).2 := by
  have h : ∀ n, PrefOnly s (prefScan n s).2 := fun n => prefScan_prefOnly n s
  exact h Config.nvSlots

theorem prefAppend_prefOnly (c : Byte) (s : State) : PrefOnly s (prefAppend c s).2 := by
  have hw := nvWrite_prefOnly (s.prefCur.setWidth 9) c s
  unfold prefAppend
  dsimp only
  split
  · exact hw.trans (prefAppended_prefOnly _ _ _)
  · exact hw.trans (raiseNv_prefOnly _ _)

theorem prefCommit_prefOnly (c : Byte) (s : State) : PrefOnly s (prefCommit c s).2 := by
  unfold prefCommit
  split
  · exact PrefOnly.refl s
  · split
    · have he := nvErase_prefOnly s
      dsimp only
      split
      · exact (he.trans (prefAppended_prefOnly _ _ _)).trans (prefAppend_prefOnly c _)
      · exact he.trans (raiseNv_prefOnly _ _)
    · exact prefAppend_prefOnly c s

theorem prefWrite_prefOnly (record : Byte) (s : State) : PrefOnly s (prefWrite record s).2 := by
  unfold prefWrite
  dsimp only
  split
  · exact prefCommit_prefOnly _ s
  · split
    · exact (prefRead_prefOnly s).trans (prefCommit_prefOnly _ _)
    · exact prefRead_prefOnly s

/-! ### The canonical sector -/

theorem prefInitialise_wf {s : State} (h : Memory.wf s.sector = true) :
    Memory.wf (prefInitialise s).2.sector = true := by
  have hw := nvWrite_wf 0#9 0x00#8 s h
  unfold prefInitialise
  dsimp only
  split <;> exact hw

end Sys2Proof.Machine
end

