-- ==== Sys2Proof/Laws/Step.lean ====
section
/-! SUPPORT. Everything one step can do, said once. -/

namespace Sys2Proof.Machine

/-- A command word answers a next state exactly when it decodes and its operation does. -/
theorem runCommand_eq_next {w : Word} {s t : State} :
    runCommand w s = .next t ↔ ∃ i, decode w = .ok i ∧ exec i s = .next t := by
  unfold runCommand
  cases decode w <;> simp

/-- A word is taken, or the reset sequence runs first while it is pending (R361). -/
theorem takeWord_cases (w : Word) (rest : List Request) (s : State) :
    (s.resetPending = true ∧ takeWord w rest s = (.resetSequence, beginOp s.requests s)) ∨
    (s.resetPending = false ∧ takeWord w rest s = (.command w, beginOp rest s)) := by
  unfold takeWord
  cases s.resetPending <;> simp

/-- What the block takes next: a register reset; the reset sequence, while it is pending; or a command word (a tick is the TICK word),
once it is not. -/
theorem takeRequest_cases (s : State) :
    (∃ rest, s.requests = .rst :: rest ∧ takeRequest s = (.registerReset, beginOp rest s)) ∨
    (s.resetPending = true ∧ NoRstNext s ∧ takeRequest s = (.resetSequence, beginOp s.requests s)) ∨
    (s.resetPending = false ∧ ∃ w rest, takeRequest s = (.command w, beginOp rest s) ∧
      (s.requests = .cmd w :: rest ∨
        (w = tickWord ∧ (s.requests = .tick :: rest ∨ (s.requests = [] ∧ rest = []))))) := by
  unfold takeRequest NoRstNext
  cases hr : s.requests with
  | nil =>
    rcases takeWord_cases tickWord [] s with ⟨hp, ht⟩ | ⟨hp, ht⟩
    · exact .inr (.inl ⟨hp, by simp, by simpa [hr] using ht⟩)
    · exact .inr (.inr ⟨hp, _, [], ht, .inr ⟨rfl, .inr ⟨rfl, rfl⟩⟩⟩)
  | cons r rest =>
    cases r with
    | rst => exact .inl ⟨rest, rfl, rfl⟩
    | tick =>
      rcases takeWord_cases tickWord rest s with ⟨hp, ht⟩ | ⟨hp, ht⟩
      · exact .inr (.inl ⟨hp, by simp, by simpa [hr] using ht⟩)
      · exact .inr (.inr ⟨hp, _, rest, ht, .inr ⟨rfl, .inl rfl⟩⟩)
    | cmd w =>
      rcases takeWord_cases w rest s with ⟨hp, ht⟩ | ⟨hp, ht⟩
      · exact .inr (.inl ⟨hp, by simp, by simpa [hr] using ht⟩)
      · exact .inr (.inr ⟨hp, w, rest, ht, .inl rfl⟩)

/-- A step that answers a next state is a register reset, the reset sequence, or the operation of a command word (a tick is the TICK
word, taken with or without a request). -/
theorem step_cases {s t : State} (h : step s = .next t) :
    (∃ rest, s.requests = .rst :: rest ∧ t = registerReset (beginOp rest s)) ∨
    (s.resetPending = true ∧ NoRstNext s ∧ resetSequence (beginOp s.requests s) = .next t) ∨
    (s.resetPending = false ∧ ∃ w rest i, decode w = .ok i ∧ exec i (beginOp rest s) = .next t ∧
      (s.requests = .cmd w :: rest ∨
        (w = tickWord ∧ (s.requests = .tick :: rest ∨ (s.requests = [] ∧ rest = []))))) := by
  unfold step at h
  rcases takeRequest_cases s with ⟨rest, hr, he⟩ | ⟨hp, hn, he⟩ | ⟨hp, w, rest, he, ho⟩ <;> simp only [he] at h
  · exact .inl ⟨rest, hr, by simpa using h.symm⟩
  · exact .inr (.inl ⟨hp, hn, h⟩)
  · obtain ⟨i, hd, hx⟩ := runCommand_eq_next.1 h
    exact .inr (.inr ⟨hp, w, rest, i, hd, hx, ho⟩)

/-- The reset sequence answers a next state exactly when its two conversions complete (R361). -/
theorem resetSequence_eq_next {s t : State} :
    resetSequence s = .next t ↔
      ∃ u, batSample (restoreModes (prefRead { s with resetPending := false }).1
          (prefRead { s with resetPending := false }).2) = .next u ∧ rvcUpdate true u = .next t := by
  unfold resetSequence
  rw [andThen_eq_next]

/-- TICK answers a next state exactly when each part it runs does (R160). -/
theorem tickOp_eq_next {s t : State} :
    tickOp s = .next t ↔
      ∃ u, (if tickCount s % 5 = 0 then
          fifthTick (debounce .sw1 (debounce .sw0 { s with tc := BitVec.ofNat 7 (tickCount s) }))
        else .next (debounce .sw1 (debounce .sw0 { s with tc := BitVec.ofNat 7 (tickCount s) }))) = .next u ∧
        (if tickCount s = 0 then batSample u else .next u) = .next t := by
  unfold tickOp
  dsimp only
  rw [andThen_eq_next]

/-- The 5th-tick group answers a next state exactly when each part it runs does (R160). -/
theorem fifthTick_eq_next {s t : State} :
    fifthTick s = .next t ↔
      ∃ u v, rvcUpdate false s = .next u ∧
        (if u.ledMode = .vuMeter then vuSample u else .next u) = .next v ∧ render v = .next t := by
  unfold fifthTick
  simp only [andThen_eq_next]
  constructor
  · rintro ⟨u, hu, v, hv, ht⟩; exact ⟨u, v, hu, hv, ht⟩
  · rintro ⟨u, v, hu, hv, ht⟩; exact ⟨u, hu, v, hv, ht⟩

end Sys2Proof.Machine
end

