-- ==== Sys2Proof/Laws/Faults.lean ====
section
/-! SUPPORT. Said once for each operation: which fault it can end in. The conversions end in sensorHang (R333), RENDER in battNoValue
(R49), and TICK in one of those of the operations it calls. -/

namespace Sys2Proof.Machine

/-- A sequence faults exactly when its first part does, or its second on the state the first left. -/
theorem andThen_eq_fault {r : Result} {f : State → Result} {e : Fault} :
    andThen r f = .fault e ↔ r = .fault e ∨ ∃ u, r = .next u ∧ f u = .fault e := by
  cases r <;> simp [andThen]

theorem rvcUpdate_eq_fault {force : Bool} {s : State} {e : Fault} (h : rvcUpdate force s = .fault e) :
    e = .sensorHang .rvc := by
  unfold rvcUpdate at h
  split at h
  · rename_i ha; cases h; exact (adcRead_eq_error.1 ha).2
  · cases h

theorem batSample_eq_fault {s : State} {e : Fault} (h : batSample s = .fault e) : e = .sensorHang .batt := by
  unfold batSample at h
  split at h
  · rename_i ha; cases h; exact (adcRead_eq_error.1 ha).2
  · cases h

theorem vuSample_eq_fault {s : State} {e : Fault} (h : vuSample s = .fault e) : e = .sensorHang .audio := by
  unfold vuSample at h
  split at h
  · rename_i ha; cases h; exact adcReads_error ha
  · cases h

/-- RENDER faults exactly where it reads BATT while BATT is empty (R240, R49). -/
theorem render_eq_fault {s : State} {e : Fault} :
    render s = .fault e ↔ s.ovrState = .idle ∧ s.batt = none ∧ e = .battNoValue := by
  unfold render overrideActive
  by_cases ho : s.ovrState = .idle
  · cases hb : s.batt with
    | none => simp [ho, eq_comm]
    | some b => simp [ho]
  · simp [ho]

/-! ### BATT through a TICK -/

theorem switchEvent_batt (sw : SwitchId) (e : Edge) (s : State) : (switchEvent sw e s).batt = s.batt := by
  have hp : ∀ s, (persistModes s).batt = s.batt := by
    intro s
    obtain ⟨_, _, _, _, _, _, _, h⟩ := prefWrite_prefOnly (encodeRecord s.rvcMode s.ledMode) s
    unfold persistModes
    rw [h]
  cases e
  · rfl
  · unfold switchEvent
    dsimp only
    split
    · unfold modeRelease; dsimp only; rw [hp]; split <;> rfl
    · unfold curveRelease; dsimp only; rw [hp]; rfl

theorem debounce_batt (sw : SwitchId) (s : State) : (debounce sw s).batt = s.batt := by
  have h1 : ∀ r t, (setSwitchRegs sw r t).batt = t.batt := by intro r t; cases sw <;> rfl
  have h2 : (pinRead sw s).2.batt = s.batt := rfl
  unfold debounce
  dsimp only
  split
  · rw [switchEvent_batt]; exact (h1 _ _).trans h2
  · split <;> exact (h1 _ _).trans h2

theorem rvcUpdate_batt {force : Bool} {s t : State} (h : rvcUpdate force s = .next t) : t.batt = s.batt := by
  obtain ⟨raw, u, ha, rfl⟩ := rvcUpdate_eq_next.1 h
  obtain ⟨_, _, _, _, _, _, hf⟩ := sendUpdate_frame force (target raw u.rvcMode) u
  rw [hf, (adcRead_eq_ok.1 ha).2]
  rfl

theorem vuSample_batt {s t : State} (h : vuSample s = .next t) : t.batt = s.batt := by
  obtain ⟨bs, u, ha, rfl⟩ := vuSample_eq_next.1 h
  rw [(adcReads_ok ha).2]
  rfl

/-- TICK reads the BATT it was given: it ends in battNoValue only where that is empty (R160, R49). -/
theorem tickOp_battNoValue {s : State} (h : tickOp s = .fault .battNoValue) : s.batt = none := by
  unfold tickOp at h
  dsimp only at h
  rcases andThen_eq_fault.1 h with h1 | ⟨u, _, h2⟩
  · split at h1
    · unfold fifthTick at h1
      rcases andThen_eq_fault.1 h1 with h3 | ⟨v, hv, h4⟩
      · cases rvcUpdate_eq_fault h3
      · rcases andThen_eq_fault.1 h4 with h5 | ⟨w, hw, h6⟩
        · split at h5
          · cases vuSample_eq_fault h5
          · cases h5
        · have hb : w.batt = v.batt := by
            split at hw
            · exact vuSample_batt hw
            · cases hw; rfl
          rw [← (render_eq_fault.1 h6).2.1, hb, rvcUpdate_batt hv, debounce_batt, debounce_batt]
    · cases h1
  · split at h2
    · cases batSample_eq_fault h2
    · cases h2

/-- Whatever the instruction, battNoValue comes only from an empty BATT (R49). -/
theorem exec_battNoValue {i : Instr} {s : State} (h : exec i s = .fault .battNoValue) : s.batt = none := by
  cases i with
  | tick => exact tickOp_battNoValue h
  | render => exact (render_eq_fault.1 h).2.1
  | rvcupd force => cases rvcUpdate_eq_fault h
  | vusamp => cases vuSample_eq_fault h
  | batsamp => cases batSample_eq_fault h
  | nop => cases h
  | debounce sw => cases h
  | swevt sw e => cases h
  | stepset level => cases h
  | ovrstart n => cases h
  | prefinit => cases h
  | prefread => cases h
  | prefwrite record => cases h

/-- A word placed by withFetchWord never meets an empty BATT that a pending reset sequence would have given a reading (R361, R49). -/
theorem withFetchWord_battReady {s : State} (nbits w : Nat) (h : BattReady s) : BattReady (s.withFetchWord nbits w) := by
  refine .inr ?_
  unfold State.withFetchWord
  dsimp only
  split
  · simp
  · rename_i hp
    exact h.resolve_left hp

/-- The reset sequence reads no register that is ⊥: it ends only in sensorHang (R361, R333). -/
theorem resetSequence_eq_fault {s : State} {e : Fault} (h : resetSequence s = .fault e) :
    e = .sensorHang .batt ∨ e = .sensorHang .rvc := by
  unfold resetSequence at h
  rcases andThen_eq_fault.1 h with h | ⟨u, _, h⟩
  · exact .inl (batSample_eq_fault h)
  · exact .inr (rvcUpdate_eq_fault h)

end Sys2Proof.Machine
end

