-- ==== Sys2Proof/Laws/Inputs.lean ====
section
/-! SUPPORT. The inputs an operation finds ready, and what its draws do to them. -/

namespace Sys2Proof.Machine

/-- A conversion that completes. -/
theorem adcRead_ready {ch : Channel} {s : State} {b : Byte} {p : Inputs} (h : nextReading ch s.inputs = (some b, p)) :
    adcRead ch s = .ok (b, emit [.adc ch b] (withInputs p s)) := by
  rw [adcRead_eq_ok, h]; exact ⟨rfl, rfl⟩

/-- `n` conversions that all complete. -/
theorem adcReads_ready {ch : Channel} {n : Nat} {s : State} {bs : List Byte} {p : Inputs}
    (h : readingsReady ch n s.inputs = some (bs, p)) :
    adcReads ch n s = .ok (bs, emit (bs.map (.adc ch)) (withInputs p s)) := by
  induction n generalizing s bs p with
  | zero =>
    simp only [readingsReady, Option.some.injEq, Prod.mk.injEq] at h
    obtain ⟨rfl, rfl⟩ := h
    simp [adcReads, emit, withInputs]
  | succ n ih =>
    unfold readingsReady at h
    cases hr : (nextReading ch s.inputs).1 with
    | none => simp [hr] at h
    | some b =>
      simp only [hr] at h
      cases hq : readingsReady ch n (nextReading ch s.inputs).2 with
      | none => simp [hq] at h
      | some q =>
        obtain ⟨cs, q⟩ := q
        simp only [hq, Option.some.injEq, Prod.mk.injEq] at h
        obtain ⟨rfl, rfl⟩ := h
        have hb : adcRead ch s = .ok (b, emit [.adc ch b] (withInputs (nextReading ch s.inputs).2 s)) :=
          adcRead_ready (by rw [← hr])
        simp only [adcReads, hb]
        rw [ih (s := emit [.adc ch b] (withInputs (nextReading ch s.inputs).2 s)) hq]
        simp [emit, withInputs]

/-- `n` conversions of which one never completes. -/
theorem adcReads_hangs {ch : Channel} {n : Nat} {s : State} (h : readingsReady ch n s.inputs = none) :
    adcReads ch n s = .error (.sensorHang ch) := by
  induction n generalizing s with
  | zero => simp [readingsReady] at h
  | succ n ih =>
    unfold readingsReady at h
    cases hr : (nextReading ch s.inputs).1 with
    | none => simp [adcReads, adcRead, hr]
    | some b =>
      simp only [hr] at h
      cases hq : readingsReady ch n (nextReading ch s.inputs).2 with
      | none =>
        have hb : adcRead ch s = .ok (b, emit [.adc ch b] (withInputs (nextReading ch s.inputs).2 s)) :=
          adcRead_ready (by rw [← hr])
        simp only [adcReads, hb]
        rw [ih (s := emit [.adc ch b] (withInputs (nextReading ch s.inputs).2 s)) hq]
      | some q => simp [hq] at h

/-- Where the scripted conversions complete, the next one does, and those left do too. -/
theorem nextReading_complete (ch : Channel) {p : Inputs} (h : ConversionsComplete p) :
    (∃ b, (nextReading ch p).1 = some b) ∧ ConversionsComplete (nextReading ch p).2 := by
  obtain ⟨h1, h2, h3⟩ := h
  unfold ConversionsComplete
  cases ch <;> simp only [nextReading]
  · cases hl : p.rvc with
    | nil => exact ⟨⟨_, rfl⟩, by simp, h2, h3⟩
    | cons x xs => cases x <;> simp [hl] at h1 ⊢; exact ⟨h1, h2, h3⟩
  · cases hl : p.audio with
    | nil => exact ⟨⟨_, rfl⟩, h1, by simp, h3⟩
    | cons x xs => cases x <;> simp [hl] at h2 ⊢; exact ⟨h1, h2, h3⟩
  · cases hl : p.batt with
    | nil => exact ⟨⟨_, rfl⟩, h1, h2, by simp⟩
    | cons x xs => cases x <;> simp [hl] at h3 ⊢; exact ⟨h1, h2, h3⟩

/-- A scripted level is the one drawn, and is used up. -/
theorem nextLevel_scripted {sw : SwitchId} {p : Inputs} {x : Bool} {xs : List Bool} (h : levelsOf sw p = x :: xs) :
    (nextLevel sw p).1 = x ∧ levelsOf sw (nextLevel sw p).2 = xs := by
  cases sw <;> simp only [levelsOf] at h <;> simp [nextLevel, h, levelsOf]

theorem NvDraws.levelsOf {p q : Inputs} (h : NvDraws p q) (sw : SwitchId) :
    Sys2Proof.Machine.levelsOf sw q = Sys2Proof.Machine.levelsOf sw p := by
  obtain ⟨_, _, _, rfl⟩ := h; cases sw <;> rfl

theorem NvDraws.complete {p q : Inputs} (h : NvDraws p q) (hp : ConversionsComplete p) : ConversionsComplete q := by
  obtain ⟨_, _, _, rfl⟩ := h; exact hp

/-! ### NV results -/

theorem afterOk_succ (n : Nat) (p : Inputs) : afterOk (n + 1) p = (nextOk (afterOk n p)).2 := by
  induction n generalizing p with
  | zero => rfl
  | succ n ih => exact ih _

/-- A failed erase draws one leftover byte for each slot (R83). -/
theorem drawnSlots_snd (a n : Nat) (p : Inputs) : (drawnSlots a n p).2 = afterLeft n p := by
  induction n generalizing a p with
  | zero => rfl
  | succ n ih => exact ih _ _

theorem okReady_succ (n : Nat) (p : Inputs) :
    okReady (n + 1) p = (okReady n p && (nextOk (afterOk n p)).1) := by
  induction n generalizing p with
  | zero => simp [okReady, afterOk]
  | succ n ih => rw [okReady, ih, okReady, afterOk, Bool.and_assoc]

theorem okReady_of_le {m n : Nat} {p : Inputs} (h : okReady n p = true) (hm : m ≤ n) : okReady m p = true := by
  induction n with
  | zero =>
    obtain rfl : m = 0 := by omega
    exact h
  | succ n ih =>
    rcases Nat.lt_or_eq_of_le hm with h' | rfl
    · rw [okReady_succ] at h
      simp only [Bool.and_eq_true] at h
      exact ih h.1 (by omega)
    · exact h

theorem okReady_after {n k : Nat} {p : Inputs} (h : okReady (k + n) p = true) : okReady n (afterOk k p) = true := by
  induction k generalizing p with
  | zero => rw [Nat.zero_add] at h; exact h
  | succ k ih =>
    have e : k + 1 + n = (k + n) + 1 := by omega
    rw [e, okReady] at h
    simp only [Bool.and_eq_true] at h
    exact ih h.2

end Sys2Proof.Machine
end

