-- ==== Sys2Proof/Laws/Invariant.lean ====
section
/-! SUPPORT. An invariant of the machine, proved part by part: a property that each shared operation keeps is kept by every
instruction, by the reset sequence and by every step. -/

namespace Sys2Proof.Machine

/-- Each shared operation the meanings are written over keeps `P`. -/
structure KeptByParts (P : State → Prop) : Prop where
  /-- The requests, the inputs, the trace and the reset flag play no part in `P`. -/
  outside : ∀ s rest inp tr pend, P s →
    P { s with requests := rest, inputs := inp, trace := tr, resetPending := pend }
  count : ∀ s n, n < 100 → P s → P { s with tc := BitVec.ofNat 7 n }
  switch : ∀ s sw r, ((switchRegs sw s).cnt.toNat ≤ 4 → r.cnt.toNat ≤ 4) → P s → P (setSwitchRegs sw r s)
  led : ∀ s l, P s → P { s with ledMode := l }
  curve : ∀ s m, P s → P { s with rvcMode := m }
  vuState : ∀ s v, P s → P { s with vuState := v }
  frame : ∀ s l, P s → P (stepSet l s)
  goal : ∀ s g, g ≤ 64 → P s → P (setAttPrev g s)
  sample : ∀ s bs, P s → P (vuTake bs s)
  battery : ∀ s b, P s → P (setBatt b s)
  override : ∀ s n, (n = 1#2 ∨ n = 2#2) → P s → P (ovrStart n s)
  display : ∀ s t, render s = .next t → P s → P t
  initialise : ∀ s, P s → P (prefInitialise s).2
  scan : ∀ s, P s → P (prefRead s).2
  append : ∀ s r, P s → P (prefWrite r s).2

/-- Every instruction a command word decodes to is well-formed: what the decoder makes of a flash count is 1 or 2. -/
theorem wellFormed_of_decode {w : Word} {i : Instr} (hd : decode w = .ok i) : i.wellFormed = true := by
  unfold decode at hd
  split at hd <;>
    first
    | cases hd
    | (have hi := (accept_eq_ok.1 hd).2.2; subst hi; first | rfl | (cases (modField w).getLsbD 0 <;> rfl))

variable {P : State → Prop} (h : KeptByParts P)
include h

theorem KeptByParts.emit (es : List Event) {s : State} (hp : P s) : P (Machine.emit es s) :=
  h.outside s s.requests s.inputs (s.trace ++ es) s.resetPending hp

theorem KeptByParts.inputs (p : Inputs) {s : State} (hp : P s) : P (withInputs p s) :=
  h.outside s s.requests p s.trace s.resetPending hp

theorem KeptByParts.beginOp (rest : List Request) {s : State} (hp : P s) : P (Machine.beginOp rest s) :=
  h.outside s rest s.inputs [] s.resetPending hp

theorem KeptByParts.sendFrames (first : Bool) (ls : List Nat) {s : State} (hp : P s) :
    P (Machine.sendFrames first ls s) := by
  induction ls generalizing first s with
  | nil => exact hp
  | cons x xs ih =>
    simp only [Machine.sendFrames]
    apply ih
    apply h.frame
    split
    · exact hp
    · exact h.emit _ hp

theorem KeptByParts.adcRead {ch : Channel} {s t : State} {b : Byte} (he : Machine.adcRead ch s = .ok (b, t))
    (hp : P s) : P t := by
  rw [adcRead_eq_ok] at he
  rw [he.2]
  exact h.emit _ (h.inputs _ hp)

theorem KeptByParts.adcReads {ch : Channel} {n : Nat} {s t : State} {bs : List Byte}
    (he : Machine.adcReads ch n s = .ok (bs, t)) (hp : P s) : P t := by
  rw [(adcReads_ok he).2]
  exact h.emit _ (h.inputs _ hp)

theorem KeptByParts.rvcUpdate {force : Bool} {s t : State} (he : Machine.rvcUpdate force s = .next t) (hp : P s) :
    P t := by
  obtain ⟨raw, s1, ha, rfl⟩ := rvcUpdate_eq_next.1 he
  have h1 := h.adcRead ha hp
  apply h.goal _ _ (target_le _ _)
  unfold sendUpdate
  split
  · exact h.frame _ _ h1
  · exact h.sendFrames _ _ h1

theorem KeptByParts.vuSample {s t : State} (he : Machine.vuSample s = .next t) (hp : P s) : P t := by
  obtain ⟨bs, s1, ha, rfl⟩ := vuSample_eq_next.1 he
  exact h.sample _ _ (h.adcReads ha hp)

theorem KeptByParts.batSample {s t : State} (he : Machine.batSample s = .next t) (hp : P s) : P t := by
  obtain ⟨b, s1, ha, rfl⟩ := batSample_eq_next.1 he
  exact h.battery _ _ (h.adcRead ha hp)

theorem KeptByParts.switchEvent (sw : SwitchId) (e : Edge) {s : State} (hp : P s) :
    P (Machine.switchEvent sw e s) := by
  cases e
  · exact hp
  · unfold Machine.switchEvent
    dsimp only
    split
    · unfold modeRelease persistModes
      dsimp only
      apply h.append
      split
      · exact h.vuState _ _ (h.led s (nextLedMode s.ledMode) hp)
      · exact h.led s _ hp
    · unfold curveRelease persistModes
      dsimp only
      apply h.append
      apply h.override
      · unfold curveFlashes
        split <;> simp
      · exact h.curve _ _ hp

theorem KeptByParts.debounce (sw : SwitchId) {s : State} (hp : P s) : P (Machine.debounce sw s) := by
  have hs : P (pinRead sw s).2 := h.emit _ (h.inputs _ hp)
  have e : switchRegs sw (pinRead sw s).2 = switchRegs sw s := by cases sw <;> rfl
  unfold Machine.debounce
  dsimp only
  split
  · exact h.switchEvent _ _ (h.emit _ (h.switch _ _ _ (fun _ => by simp) hs))
  · split
    · exact h.switch _ _ _ (fun _ => by simp) hs
    · rename_i h1 h2
      refine h.switch _ _ _ ?_ hs
      rw [e]
      intro h4
      have : (switchRegs sw s).cnt.toNat ≠ 4 := fun h5 => h1 ⟨by simp only [Config.debN]; omega, h2⟩
      rw [BitVec.toNat_add]
      simp
      omega

theorem KeptByParts.tickOp {s t : State} (he : Machine.tickOp s = .next t) (hp : P s) : P t := by
  obtain ⟨u, hu, hb⟩ := tickOp_eq_next.1 he
  have h1 : P (Machine.debounce .sw1 (Machine.debounce .sw0 { s with tc := BitVec.ofNat 7 (tickCount s) })) := by
    refine h.debounce _ (h.debounce _ (h.count _ _ ?_ hp))
    unfold tickCount
    simp only [Config.tcMod]
    omega
  have h2 : P u := by
    split at hu
    · obtain ⟨v, w, hv, hw, hr⟩ := fifthTick_eq_next.1 hu
      apply h.display _ _ hr
      split at hw
      · exact h.vuSample hw (h.rvcUpdate hv h1)
      · cases hw; exact h.rvcUpdate hv h1
    · cases hu; exact h1
  split at hb
  · exact h.batSample hb h2
  · cases hb; exact h2

/-- Every instruction a word can carry keeps `P`. -/
theorem KeptByParts.exec {i : Instr} {s t : State} (hw : i.wellFormed = true) (he : Machine.exec i s = .next t)
    (hp : P s) : P t := by
  cases i with
  | nop => cases he; exact hp
  | tick => exact h.tickOp he hp
  | debounce sw => cases he; exact h.debounce _ hp
  | swevt sw e => cases he; exact h.switchEvent _ _ hp
  | rvcupd force => exact h.rvcUpdate he hp
  | stepset level => cases he; exact h.frame _ _ hp
  | vusamp => exact h.vuSample he hp
  | render => exact h.display _ _ he hp
  | batsamp => exact h.batSample he hp
  | ovrstart n => cases he; exact h.override _ _ (by simpa [Instr.wellFormed] using hw) hp
  | prefinit => cases he; exact h.initialise _ hp
  | prefread => cases he; exact h.scan _ hp
  | prefwrite record => cases he; exact h.append _ _ hp

theorem KeptByParts.resetSequence {s t : State} (he : Machine.resetSequence s = .next t) (hp : P s) : P t := by
  obtain ⟨u, h1, h2⟩ := resetSequence_eq_next.1 he
  apply h.rvcUpdate h2
  apply h.batSample h1
  unfold restoreModes
  have hr := h.scan { s with resetPending := false } (h.outside s s.requests s.inputs s.trace false hp)
  exact h.curve _ _ (h.led _ (recordLed ((prefRead { s with resetPending := false }).1.getD 0x00#8)) hr)

/-- Every step keeps `P`, if the register reset does. -/
theorem KeptByParts.step {s t : State} (hreset : ∀ u, P u → P (registerReset u)) (he : Machine.step s = .next t)
    (hp : P s) : P t := by
  rcases step_cases he with ⟨rest, _, rfl⟩ | ⟨_, _, hr⟩ | ⟨_, w, rest, i, hd, hx, _⟩
  · exact hreset _ (h.beginOp _ hp)
  · exact h.resetSequence hr (h.beginOp _ hp)
  · exact h.exec (wellFormed_of_decode hd) hx (h.beginOp _ hp)

end Sys2Proof.Machine
end

