-- ==== Sys2Proof/Laws/PerInstr.lean ====
section
/-! SUPPORT. One law per constructor of `Instr`, about the instruction as syntax: the word of a well-formed instruction
matches the opcode-table row of its mnemonic (R121, R131). -/

namespace Sys2Proof.Laws

/-- The word of `i` is one of the words of the row named by `i`'s mnemonic. -/
def EncodeRow.Statement (i : Instr) : Prop :=
  i.wellFormed = true → ∀ r ∈ opTable, r.mnemonic = mnemonicOf i → rowMatches r (encode i) = true

theorem EncodeRow.nop : EncodeRow.Statement .nop := by unfold EncodeRow.Statement; decide
theorem EncodeRow.tick : EncodeRow.Statement .tick := by unfold EncodeRow.Statement; decide
theorem EncodeRow.debounce (s : SwitchId) : EncodeRow.Statement (.debounce s) := by
  unfold EncodeRow.Statement; cases s <;> decide
theorem EncodeRow.swevt (s : SwitchId) (e : Edge) : EncodeRow.Statement (.swevt s e) := by
  unfold EncodeRow.Statement; cases s <;> cases e <;> decide
theorem EncodeRow.rvcupd (force : Bool) : EncodeRow.Statement (.rvcupd force) := by
  unfold EncodeRow.Statement; cases force <;> decide
theorem EncodeRow.stepset (level : Byte) : EncodeRow.Statement (.stepset level) := by
  unfold EncodeRow.Statement; revert level; decide +kernel
theorem EncodeRow.vusamp : EncodeRow.Statement .vusamp := by unfold EncodeRow.Statement; decide
theorem EncodeRow.render : EncodeRow.Statement .render := by unfold EncodeRow.Statement; decide
theorem EncodeRow.batsamp : EncodeRow.Statement .batsamp := by unfold EncodeRow.Statement; decide
theorem EncodeRow.ovrstart (n : BitVec 2) : EncodeRow.Statement (.ovrstart n) := by
  unfold EncodeRow.Statement; revert n; decide
theorem EncodeRow.prefinit : EncodeRow.Statement .prefinit := by unfold EncodeRow.Statement; decide
theorem EncodeRow.prefread : EncodeRow.Statement .prefread := by unfold EncodeRow.Statement; decide
theorem EncodeRow.prefwrite (record : Byte) : EncodeRow.Statement (.prefwrite record) := by
  unfold EncodeRow.Statement; revert record; decide +kernel

end Sys2Proof.Laws
end

