-- ==== Sys2Proof/Laws/Preference.lean ====
section
/-! SUPPORT. The backward scan of PREFREAD over slots that hold no record, and how its result shows in PREF_INIT. -/

namespace Sys2Proof.Machine

/-- `k` successful reads of slots that hold no record, from slot `n - 1` down. -/
theorem prefScan_skip (k n : Nat) (s : State) (hk : k ≤ n) (hn : n ≤ 512) (hok : okReady k s.inputs = true)
    (hr : ∀ c, n - k ≤ c → c < n → isRecord (Memory.get s.sector c) = false) :
    prefScan n s = prefScan (n - k)
      { s with
        inputs := afterOk k s.inputs
        trace := s.trace ++ (List.range k).map fun j =>
          .nvr (BitVec.ofNat 9 (n - 1 - j)) (some (Memory.get s.sector (n - 1 - j))) } := by
  induction k generalizing n s with
  | zero => simp [afterOk]
  | succ k ih =>
    rw [okReady_succ] at hok
    simp only [Bool.and_eq_true] at hok
    rw [ih n s (by omega) hn hok.1 fun c h3 h4 => hr c (by omega) h4]
    obtain ⟨m, hm⟩ : ∃ m, n - k = m + 1 := ⟨n - k - 1, by omega⟩
    have hm' : n - (k + 1) = m := by omega
    have ha : (BitVec.ofNat 9 m).toNat = m := by simp; omega
    rw [hm, hm', prefScan, nvRead_ok (by exact hok.2)]
    simp only [ha]
    rw [if_neg (by rw [hr m (by omega) (by omega)]; simp)]
    congr 1
    have : n - 1 - k = m := by omega
    simp [emit, withInputs, afterOk_succ, List.range_succ, this]

/-- A scan succeeds exactly when it leaves PREF_INIT = 1. -/
theorem prefScan_isSome (n : Nat) (s : State) :
    (prefScan n s).1.isSome = true ↔ (prefScan n s).2.prefInit = true := by
  induction n generalizing s with
  | zero => simp [prefScan, prefFound]
  | succ n ih =>
    unfold prefScan
    dsimp only
    split
    · simp [raiseNv, emit]
    · split
      · simp [prefFound]
      · exact ih _

/-- A candidate has bit 7 clear, so it is a record (R303). -/
theorem isRecord_candidate (r : Byte) : isRecord (r &&& 0x7F#8) = true := by revert r; decide

theorem candidate_of_record {r : Byte} (h : r.getLsbD 7 = false) : r &&& 0x7F#8 = r := by revert r; decide

end Sys2Proof.Machine
end

