-- ==== Sys2Proof/Laws/Serial.lean ====
section
/-! SUPPORT. What the bits of a frame do to the lines, the trace and the attenuator device, and which levels a ramp visits. -/

namespace Sys2Proof.Machine

/-! ### The bits of a frame -/

/-- The device's sampled bits after the low `n` bits of `w`, the highest of them first. -/
def sampledBits (w : Word) : Nat → BitVec 16 → BitVec 16
  | 0, x => x
  | n + 1, x => sampledBits w n ((x <<< 1) ||| (BitVec.ofBool (w.getLsbD n)).setWidth 16)

/-- The events of the low `n` bits of `w`, the highest of them first. -/
def sentBits (w : Word) : Nat → List Event
  | 0 => []
  | n + 1 => bitEvents (w.getLsbD n) ++ sentBits w n

/-- One bit, its device included: the bit is sampled once, and a load that is low or falls takes nothing. -/
theorem serialBit_eq (b : Bool) (s : State) :
    serialBit b s =
      { s with
        attClk := false, attData := b, attLoad := false
        device := ⟨(s.device.shift <<< 1) ||| (BitVec.ofBool b).setWidth 16, s.device.reg⟩
        trace := s.trace ++ bitEvents b } := by
  simp [serialBit, pins, delay, emit, deviceSees, bitEvents]

/-- The low `n` bits of a frame, from lines with clock and load low. -/
theorem serialBits_eq (w : Word) (n : Nat) (s : State) (hc : s.attClk = false) (hl : s.attLoad = false) :
    ∃ d, serialBits w n s =
      { s with
        attData := d, device := ⟨sampledBits w n s.device.shift, s.device.reg⟩
        trace := s.trace ++ sentBits w n } := by
  induction n generalizing s with
  | zero => exact ⟨s.attData, by simp [serialBits, sampledBits, sentBits]⟩
  | succ n ih =>
    obtain ⟨d, hd⟩ := ih (serialBit (w.getLsbD n) s) (by rw [serialBit_eq]) (by rw [serialBit_eq])
    refine ⟨d, ?_⟩
    rw [serialBits, hd, serialBit_eq]
    simp [sampledBits, sentBits, hc, hl]

theorem sampledBits_getLsbD (w : Word) (n : Nat) (hn : n ≤ 16) (x : BitVec 16) (i : Nat) (hi : i < 16) :
    (sampledBits w n x).getLsbD i = if i < n then w.getLsbD i else x.getLsbD (i - n) := by
  induction n generalizing x with
  | zero => simp [sampledBits]
  | succ n ih =>
    rw [sampledBits, ih (by omega)]
    split
    · rw [if_pos (by omega)]
    · split
      · have : i = n := by omega
        subst this
        simp
      · have h1 : i - n < 16 := by omega
        have h2 : ¬ i - n = 0 := by omega
        have h3 : ¬ (i - n < 1) := by omega
        simp [h1, h3, h2]
        congr 1

/-- After all 16 bits the device has sampled the frame (R226). -/
theorem sampledBits_all (w : Word) (x : BitVec 16) : sampledBits w 16 x = w := by
  apply BitVec.eq_of_getLsbD_eq
  intro i hi
  rw [sampledBits_getLsbD _ _ (by omega) _ _ hi, if_pos hi]

/-! ### The ramp -/

/-- The levels of a ramp: each one unit further, up or down, ending at the goal (R200, R202). -/
theorem rampLevels_eq (goal lvl d : Nat) (h : (goal - lvl) + (lvl - goal) = d) :
    rampLevels goal d lvl = (List.range d).map fun k => if goal > lvl then lvl + k + 1 else lvl - (k + 1) := by
  induction d generalizing lvl with
  | zero => rfl
  | succ d ih =>
    have hne : lvl ≠ goal := by omega
    rw [rampLevels, if_neg hne, List.range_succ_eq_map]
    dsimp only
    by_cases hg : goal > lvl
    · rw [if_pos hg, ih (lvl + 1) (by omega)]
      simp only [List.map_cons, List.map_map, hg, if_true, Nat.add_zero, List.cons.injEq, true_and]
      apply List.map_congr_left
      intro k hk
      simp at hk
      simp only [Function.comp]
      split <;> omega
    · rw [if_neg hg, ih (lvl - 1) (by omega)]
      simp only [List.map_cons, List.map_map, hg, if_false, List.cons.injEq]
      refine ⟨by simp, ?_⟩
      apply List.map_congr_left
      intro k hk
      simp at hk
      simp only [Function.comp]
      split <;> omega

theorem distance_eq (a b : Nat) : distance a b = (b - a) + (a - b) := by unfold distance; omega

end Sys2Proof.Machine
end

