-- ==== Sys2Proof/Tests/Slice0.lean ====
section
/-! SUPPORT. The model's own tests. Expected values come from spec/95_test_vectors.md and from the worked examples of the
rules, each named in its comment, never from the model. The last part gives each obligation with hypotheses states and
operands that meet them. -/

namespace Sys2Proof.Tests

open Sys2Proof.Machine

/-! ### Well-formedness: the one check, and the terms it refuses -/

/-- R125: n is 1 or 2. -/
theorem test_wellFormed_accepts_flash_counts :
    Instr.wellFormed (.ovrstart 1#2) = true ∧ Instr.wellFormed (.ovrstart 2#2) = true := by decide

/-- R125: a flash count of 0 or 3 is no command. -/
theorem test_wellFormed_refuses_other_flash_counts :
    Instr.wellFormed (.ovrstart 0#2) = false ∧ Instr.wellFormed (.ovrstart 3#2) = false := by decide

/-! ### Decoding: the words of R133's table, written out -/

theorem test_decode_nop : decode 0b0000000000000000#16 = .ok .nop := by decide
theorem test_decode_tick : decode 0b0001000000000000#16 = .ok .tick := by decide
theorem test_decode_debounce :
    decode 0b0010000000000000#16 = .ok (.debounce .sw0) ∧ decode 0b0010000100000000#16 = .ok (.debounce .sw1) := by
  decide
theorem test_decode_swevt :
    decode 0b0011000000000000#16 = .ok (.swevt .sw0 .press) ∧ decode 0b0011000100000000#16 = .ok (.swevt .sw1 .press) ∧
    decode 0b0011001000000000#16 = .ok (.swevt .sw0 .release) ∧
    decode 0b0011001100000000#16 = .ok (.swevt .sw1 .release) := by decide
theorem test_decode_rvcupd :
    decode 0b0100000000000000#16 = .ok (.rvcupd false) ∧ decode 0b0100000100000000#16 = .ok (.rvcupd true) := by decide
theorem test_decode_stepset :
    decode 0b0101000001000000#16 = .ok (.stepset 64#8) ∧ decode 0b0101000011111111#16 = .ok (.stepset 255#8) := by decide
theorem test_decode_vusamp : decode 0b0110000000000000#16 = .ok .vusamp := by decide
theorem test_decode_render : decode 0b0111000000000000#16 = .ok .render := by decide
theorem test_decode_batsamp : decode 0b1000000000000000#16 = .ok .batsamp := by decide
theorem test_decode_ovrstart :
    decode 0b1001000000000000#16 = .ok (.ovrstart 1#2) ∧ decode 0b1001000100000000#16 = .ok (.ovrstart 2#2) := by decide
theorem test_decode_prefinit : decode 0b1010000000000000#16 = .ok .prefinit := by decide
theorem test_decode_prefread : decode 0b1011000000000000#16 = .ok .prefread := by decide
theorem test_decode_prefwrite :
    decode 0b1100000000001010#16 = .ok (.prefwrite 0x0A#8) ∧ decode 0b1100000011111111#16 = .ok (.prefwrite 0xFF#8) := by
  decide

/-- L2.11: each of these words is reserved, and why. -/
theorem test_decode_reserved :
    decode 0xD000#16 = .error .op ∧ decode 0xE123#16 = .error .op ∧ decode 0xFFFF#16 = .error .op ∧
    decode 0x1001#16 = .error .data ∧ decode 0x2200#16 = .error .modifier ∧ decode 0x3400#16 = .error .modifier ∧
    decode 0x4200#16 = .error .modifier ∧ decode 0x5100#16 = .error .modifier ∧ decode 0x9200#16 = .error .modifier ∧
    decode 0xC100#16 = .error .modifier := by decide

/-- The table's numbering of a row's word is the port's word (R89, R132). -/
theorem test_decodeTableWord :
    decodeTableWord 16 0x9100 = some (.ovrstart 2#2) ∧ decodeTableWord 16 0xD000 = none := by
  decide

/-! ### Small states -/

/-- After a reset sequence: BATT = 100 and nothing pending. -/
def base : State := { State.reset with resetPending := false, batt := some 100#8, attCur := some 0#8, prefInit := true }

/-- No input scripted. -/
def quiet : Inputs := ⟨[], [], [], [], [], [], [], 0⟩

/-- One part of the next state an outcome holds, if it holds one. -/
def got {α : Type} (f : State → α) : Result → Option α
  | .next s => some (f s)
  | .fault _ => none
  | .refused _ => none

/-! ### One step each -/

/-- L2.1: the first tick leaves TC = 1 and runs the two debounces only. -/
theorem test_tick_counts :
    got (fun s => (s.tc, s.trace)) (step { base with inputs := { quiet with sw0 := [true], sw1 := [true] } }) =
      some (1#7, [.pin .sw0 true, .pin .sw1 true]) := by decide +kernel

/-- L2.1: the 100th tick wraps TC and samples the battery after the render (R290). -/
theorem test_tick_wraps :
    got (fun s => (s.tc, s.batt, s.pwm))
      (exec .tick { base with
        tc := 99#7, batt := some 84#8, ledMode := .editSw1, pwm := ⟨7#8, 8#8, 9#8⟩
        inputs := { quiet with sw0 := [true], sw1 := [true], rvc := [some 255#8], batt := [some 92#8] } }) =
      some (0#7, some 92#8, ⟨7#8, 8#8, 9#8⟩) := by decide +kernel

/-- R165. -/
theorem test_nop : got (fun s => s.trace) (exec .nop { base with trace := [] }) = some [] := by decide

/-- R180's worked example. -/
theorem test_debounce_fifth_low_presses :
    got (fun s => (s.sw0, s.trace))
      (exec (.debounce .sw0) { base with sw0 := ⟨false, true, 4#3⟩, inputs := { quiet with sw0 := [false] } }) =
      some (⟨false, false, 0#3⟩, [.pin .sw0 false, .ev .sw0 .press]) := by decide

/-- L2.2, row (1, 4), raw 1: the count restarts. -/
theorem test_debounce_contrary_sample_clears :
    got (fun s => (s.sw1, s.trace))
      (exec (.debounce .sw1) { base with sw1 := ⟨false, true, 4#3⟩, inputs := { quiet with sw1 := [true] } }) =
      some (⟨true, true, 0#3⟩, [.pin .sw1 true]) := by decide

/-- R183's worked example. -/
theorem test_swevt_mode_release :
    got (fun s => (s.ledMode, s.vuState, s.prefEff, s.trace))
      (exec (.swevt .sw0 .release) { base with inputs := { quiet with nvOk := [true] } }) =
      some (.vuMeter, 0xFFFF#16, 0x02#8, [.nvw 0#9 0x02#8 true]) := by decide +kernel

/-- R184's worked example. -/
theorem test_swevt_curve_release :
    got (fun s => (s.rvcMode, s.ovrState, s.ovrN, s.prefEff))
      (exec (.swevt .sw1 .release)
        { base with rvcMode := .traditionalCurve, ledMode := .solidGreen, inputs := { quiet with nvOk := [true] } }) =
      some (.defaultWithMute, .initialPause, 1#2, 0x06#8) := by decide +kernel

/-- L2.6, fourth row: target 17 from 14, frames 15, 16, 17, so two step delays. -/
theorem test_rvcupd_ramps :
    got (fun s => (s.attPrev, s.attCur, framesOf s.trace, stepDelays s.trace))
      (exec (.rvcupd false) { base with attPrev := 14#7, inputs := { quiet with rvc := [some 111#8] } }) =
      some (17#7, some 17#8, [15, 16, 17], 2) := by decide +kernel

/-- L1.2, fourth row: a forced update sends one frame although the target is ATT_PREV. -/
theorem test_rvcupd_force :
    got (fun s => (s.attPrev, framesOf s.trace, stepDelays s.trace))
      (exec (.rvcupd true) { base with attPrev := 11#7, inputs := { quiet with rvc := [some 98#8] } }) =
      some (11#7, [11], 0) := by decide +kernel

/-- L2.5: STEPSET 5 has 84 events, leaves the lines at 0, 1, 1, and the device latches 0x05. -/
theorem test_stepset_frame :
    got (fun s => (s.attCur, s.device.reg, [s.attClk, s.attData, s.attLoad], s.trace.length))
      (exec (.stepset 5#8) base) = some (some 5#8, 5#8, [false, true, true], 84) := by decide +kernel

/-- L2.5: the events of bit 2 of STEPSET 5, and the last three. -/
theorem test_stepset_events :
    got (fun s => ((s.trace.drop 66).take 5, s.trace.drop 81)) (exec (.stepset 5#8) base) =
      some ([.ser false true false, .delay .setup, .ser true true false, .delay .hold, .ser false true false],
        [.ser false true true, .ser false true true, .att 5#8]) := by decide +kernel

/-- R270's worked example: nineteen readings of 128 and one of 200. -/
theorem test_vusamp_attack :
    got (fun s => (s.vuState, s.vuWin.toList, s.vuWp))
      (exec .vusamp { base with inputs := { quiet with audio := some 200#8 :: List.replicate 19 (some 128#8) } }) =
      some (0x4800#16, [72#8, 0#8, 0#8, 0#8], 1#2) := by decide +kernel

/-- L2.7, last VUSAMP row: all 127 into slot 3, signal 9; and R271's floor at 257 with signal 1. -/
theorem test_vusamp_window_wraps :
    got (fun s => (s.vuState, s.vuWin.toList, s.vuWp))
      (exec .vusamp { base with
        vuWin := #v[9#8, 9#8, 9#8, 9#8], vuWp := 3#2
        inputs := { quiet with audio := List.replicate 20 (some 127#8) } }) =
      some (2304#16, [9#8, 9#8, 9#8, 1#8], 0#2) ∧ smooth 257 1 = 0 := by decide +kernel

/-- L2.8: in EditSw1 with a good battery RENDER makes no event and holds the LED. -/
theorem test_render_edit_holds :
    got (fun s => (s.pwm, s.trace)) (exec .render { base with ledMode := .editSw1, pwm := ⟨1#8, 2#8, 3#8⟩ }) =
      some (⟨1#8, 2#8, 3#8⟩, []) := by decide

/-- L2.8, override with n = 2: after render 18 the state is FlashOn, 0, 1. -/
theorem test_render_override_repeats :
    got (fun s => (s.ovrState, s.ovrCnt, s.ovrIdx, s.pwm))
      (exec .render { base with ovrState := .flashOff, ovrCnt := 3#4, ovrIdx := 0#2, ovrN := 2#2 }) =
      some (.flashOn, 0#4, 1#2, ⟨0#8, 0#8, 0#8⟩) := by decide

/-- L2.9. -/
theorem test_batsamp :
    got (fun s => (s.batt, s.trace)) (exec .batsamp { base with inputs := { quiet with batt := [some 92#8] } }) =
      some (some 92#8, [.adc .batt 92#8]) := by decide

/-- R250's worked example. -/
theorem test_ovrstart :
    got (fun s => (s.ovrState, s.ovrCnt, s.ovrIdx, s.ovrN)) (exec (.ovrstart 2#2) base) =
      some (.initialPause, 0#4, 0#2, 2#2) := by decide

/-- R301's worked example. -/
theorem test_prefinit :
    got (fun s => (s.prefCur, s.prefEff, s.prefInit, s.sector))
      (exec .prefinit { base with prefInit := false, inputs := { quiet with nvOk := [true] } }) =
      some (1#10, 0x00#8, true, [(0, 0x00#8)]) := by decide

/-- L2.10: a record in slot 511 costs one read and leaves the cursor at 512. -/
theorem test_prefread_last_slot :
    got (fun s => (s.prefCur, s.prefEff, s.trace))
      (exec .prefread { base with sector := [(511, 0x0A#8)], inputs := { quiet with nvOk := [true] } }) =
      some (512#10, 0x0A#8, [.nvr 511#9 (some 0x0A#8)]) := by decide +kernel

/-- L2.10: a full sector is erased before the append, and bit 7 of the candidate is cleared. -/
theorem test_prefwrite_full_sector :
    got (fun s => (s.prefCur, s.prefEff, s.sector, s.trace))
      (exec (.prefwrite 0x8C#8) { base with
        prefCur := 512#10, prefEff := 0x0A#8, sector := [(511, 0x0A#8)], inputs := { quiet with nvOk := [true, true] } }) =
      some (1#10, 0x0C#8, [(0, 0x0C#8)], [.nve true, .nvw 0#9 0x0C#8 true]) := by decide +kernel

/-- L2.10: a failed append leaves the cursor and the effective record and clears PREF_INIT. -/
theorem test_prefwrite_failed_append :
    got (fun s => (s.prefCur, s.prefEff, s.prefInit, s.trace))
      (exec (.prefwrite 0x04#8) { base with
        prefCur := 1#10, prefEff := 0x0C#8, sector := [(0, 0x0C#8)]
        inputs := { quiet with nvOk := [false], nvLeft := [0x00#8] } }) =
      some (1#10, 0x0C#8, false, [.nvw 1#9 0x04#8 false, .err (.nvWriteFail 1#9)]) := by decide +kernel

/-- R361's worked example: slots 0 and 1 hold 0x00 and 0x0A, battery 100, RVC 255. -/
theorem test_reset_sequence :
    got (fun s => ((s.ledMode, s.rvcMode), (s.prefCur, s.prefEff), (s.batt, s.attPrev, s.attCur)))
      (step { State.reset with
        sector := [(0, 0x00#8), (1, 0x0A#8)]
        inputs := { quiet with
          nvOk := List.replicate 511 true, batt := [some 100#8], rvc := [some 255#8] } }) =
      some ((.vuMeter, .traditionalCurve), (2#10, 0x0A#8), (some 100#8, 0#7, some 0#8)) := by decide +kernel

/-- P1: the first TICK word after rst waits for the reset sequence, which gives BATT its first value (R361). -/
theorem test_tick_word_waits_for_reset_sequence :
    got (fun s => ((s.tc, s.batt, s.attPrev, s.attCur), s.requests, s.resetPending))
      (step { State.reset with
        requests := [.cmd 0x1000#16], sector := [(511, 0x00#8)]
        inputs := { quiet with nvOk := [true], batt := [some 100#8], rvc := [some 255#8] } }) =
      some ((0#7, some 100#8, 0#7, some 0#8), [.cmd 0x1000#16], false) := by decide +kernel

/-- R361, I17: a RENDER word right after rst waits too, so it is not read against an empty BATT; the step after runs it and shows the
battery's colour (99 or above, R242). -/
theorem test_render_word_after_reset_runs :
    got (fun s => (s.requests, s.pwm))
      (andThen
        (step { State.reset with
          requests := [.cmd 0x7000#16], sector := [(511, 0x00#8)]
          inputs := { quiet with nvOk := [true], batt := [some 99#8], rvc := [some 255#8] } })
        step) = some ([], Config.battGreen) := by rfl

/-- P5: a word issued with no reset sequence before it, here PREFREAD on registers at their reset values. -/
theorem test_command_word_with_no_reset_sequence :
    got (fun s => (s.prefCur, s.prefEff, s.batt))
      (step { State.reset with
        resetPending := false, requests := [.cmd 0xB000#16]
        sector := [(511, 0x0A#8)], inputs := { quiet with nvOk := [true] } }) =
      some (512#10, 0x0A#8, none) := by decide +kernel

/-- A RENDER word placed at reset runs, on whatever reading the reset sequence gave BATT (R361, R240). -/
theorem test_withFetchWord_render : ∃ t, step (State.withFetchWord State.reset 16 0x7000) = .next t := ⟨_, rfl⟩

/-- A word placed at reset is what the very next step runs, a TICK word too: TC = 1 (R363). -/
theorem test_withFetchWord_tick :
    got (fun s => (s.tc, s.trace))
      (step (State.withFetchWord { State.reset with inputs := { quiet with sw0 := [true], sw1 := [true] } } 16 0x1000)) =
      some (1#7, [.pin .sw0 true, .pin .sw1 true]) := by decide +kernel

/-- P6's pulse for PULSE_MAX = 20: 6, 12, 18, 20, 14, 8, 2, 0 and again 6. -/
theorem test_pulse_sequence :
    (List.range 10).map (fun n => ((fun p : Byte × PulseDir => pulseNext 20 p.1 p.2)^[n] (0#8, .rising)).1) =
      [0#8, 6#8, 12#8, 18#8, 20#8, 14#8, 8#8, 2#8, 0#8, 6#8] := by decide +kernel

/-- L2.3: some records and what they decode to. -/
theorem test_records :
    encodeRecord .traditionalCurve .solidWhite = 0x0A#8 ∧ encodeRecord .defaultWithMute .editSw2 = 0x06#8 ∧
    recordLed 0x7F#8 = .solidGreen ∧ recordRvc 0x7F#8 = .traditionalCurve ∧ isRecord 0xF1#8 = false ∧
    recordLed 0x71#8 = .batteryMonitor := by decide

/-- L2.4: points of the curve at the ends of its segments. -/
theorem test_curve_points :
    [18, 19, 109, 110, 111, 122, 123, 224].map dwm = [0, 1, 13, 14, 17, 45, 64, 64] := by decide +kernel

/-- L2.7: points of VU_COLOR and VU_INDEX. -/
theorem test_vu_points :
    vuColor 207#8 = ⟨24#8, 36#8, 0#8⟩ ∧ vuColor 240#8 = ⟨180#8, 0#8, 0#8⟩ ∧ vuIndex 383 = 1 ∧ vuIndex 32383 = 126 ∧
    vuIndex 0x8000 = 127 := by decide

/-! ### Witnesses: for each obligation with hypotheses, states and operands that meet them -/

theorem witness_DecodeOfEncode : (Instr.ovrstart 1#2).wellFormed = true ∧ (Instr.prefwrite 255#8).wellFormed = true := by
  decide

theorem witness_AcceptedWordIsEncoding :
    decode 0x9100#16 = .ok (.ovrstart 2#2) ∧ decode 0xC0FF#16 = .ok (.prefwrite 0xFF#8) := by decide

/-- A command word waiting. -/
def asked (w : Word) : State := { base with requests := [.cmd w] }

theorem witness_ReservedWordsRefused :
    (asked 0xD000#16).requests = .cmd 0xD000#16 :: [] ∧ (asked 0x5000#16).requests = .cmd 0x5000#16 :: [] ∧
    (asked 0xD000#16).resetPending = false := by decide

theorem witness_StepRunsDecodedCommand :
    (asked 0x3300#16).requests = .cmd 0x3300#16 :: [] ∧ decode 0x3300#16 = .ok (.swevt .sw1 .release) ∧
    (Instr.swevt .sw1 .release).wellFormed = true ∧ (asked 0x3300#16).resetPending = false := by decide

/-- A tick waiting. -/
def ticked : State := { base with requests := [.tick, .rst] }

theorem witness_TickRequestRunsTick : ticked.requests = .tick :: [.rst] ∧ ticked.resetPending = false := by decide

theorem witness_NoRequestMeansNextTick : base.requests = [] ∧ base.resetPending = false := by decide

/-- A reset waiting. -/
def resetAsked : State := { base with requests := [.rst] }

theorem witness_ResetSetsEveryRegister : resetAsked.requests = .rst :: [] := by decide

theorem witness_ResetSequenceOrder :
    State.reset.resetPending = true ∧ NoRstNext State.reset ∧ NoRstNext { State.reset with requests := [.tick] } ∧
    NoRstNext { State.reset with requests := [.cmd 0x7000#16] } :=
  ⟨rfl, fun _ h => (by cases h), fun _ h => (by cases h), fun _ h => (by cases h)⟩

/-- Right after a register reset, with a record in slot 511 and every input the sequence needs. -/
def booting : State :=
  { State.reset with
    sector := [(511, 0x0A#8)], requests := [.tick]
    inputs := { quiet with nvOk := [true], batt := [some 83#8], rvc := [some 123#8] } }

theorem last_slot_newest : NewestRecord [(511, 0x0A#8)] 511 0x0A#8 :=
  ⟨by decide, by decide, by decide, fun c h k => absurd k (by omega)⟩

theorem erased_no_record : NoRecord [] := fun _ _ => show isRecord 0xFF#8 = false by decide

theorem witness_StateAfterResetSequence_record :
    booting.resetPending = true ∧ NoRstNext booting ∧ NewestRecord booting.sector 511 0x0A#8 ∧
    okReady (512 - 511) booting.inputs = true ∧
    (nextReading .batt (afterOk (512 - 511) booting.inputs)).1 = some 83#8 ∧
    (nextReading .rvc (nextReading .batt (afterOk (512 - 511) booting.inputs)).2).1 = some 123#8 :=
  ⟨rfl, fun _ h => (by cases h), last_slot_newest, by decide, by decide, by decide⟩

/-- Right after a register reset, with an erased sector. -/
def bootingErased : State :=
  { State.reset with
    inputs := { quiet with nvOk := List.replicate 512 true, batt := [some 100#8], rvc := [some 255#8] } }

theorem witness_StateAfterResetSequence_erased :
    bootingErased.resetPending = true ∧ NoRstNext bootingErased ∧ NoRecord bootingErased.sector ∧
    okReady (512 - 0) bootingErased.inputs = true ∧
    (nextReading .batt (afterOk (512 - 0) bootingErased.inputs)).1 = some 100#8 ∧
    (nextReading .rvc (nextReading .batt (afterOk (512 - 0) bootingErased.inputs)).2).1 = some 255#8 :=
  ⟨rfl, fun _ h => (by cases h), erased_no_record, by decide +kernel, by decide +kernel, by decide +kernel⟩

theorem witness_TickCompletes :
    ConversionsComplete base.inputs ∧ base.batt ≠ none ∧
    ConversionsComplete { quiet with rvc := [some 0#8], audio := [some 255#8], batt := [some 84#8] } := by
  unfold ConversionsComplete; decide

theorem witness_EveryInstructionCompletes : ConversionsComplete base.inputs ∧ base.batt ≠ none := by
  unfold ConversionsComplete; decide

/-- One tick from TC = 0. -/
theorem witness_TickCountAfterTicks :
    ∃ t, execTimes .tick 1 { base with inputs := { quiet with sw0 := [true], sw1 := [true] } } = .next t := ⟨_, rfl⟩

/-- A switch at a count, with its next level scripted. -/
def switched (deb : Bool) (cnt : BitVec 3) (raw : Bool) : State :=
  { base with sw0 := ⟨deb, deb, cnt⟩, sw1 := ⟨deb, deb, cnt⟩, inputs := { quiet with sw0 := [raw], sw1 := [raw] } }

theorem witness_DebounceResult :
    (nextLevel .sw0 (switched true 4#3 true).inputs).1 = (switchRegs .sw0 (switched true 4#3 true)).deb ∧
    ((nextLevel .sw1 (switched true 3#3 false).inputs).1 ≠ (switchRegs .sw1 (switched true 3#3 false)).deb ∧
      (switchRegs .sw1 (switched true 3#3 false)).cnt.toNat ≠ 4) ∧
    ((nextLevel .sw1 (switched false 4#3 true).inputs).1 ≠ (switchRegs .sw1 (switched false 4#3 true)).deb ∧
      (switchRegs .sw1 (switched false 4#3 true)).cnt.toNat = 4) := by decide

/-- Five low samples, then a high one. -/
def fiveLow : State := { base with inputs := { quiet with sw0 := [false, false, false, false, false, true] } }

theorem witness_TransitionAfterExactlyFiveSamples :
    ((switchRegs .sw0 fiveLow).cnt = 0#3 ∧ false ≠ (switchRegs .sw0 fiveLow).deb ∧
      levelsOf .sw0 fiveLow.inputs = List.replicate 5 false ++ [true]) ∧
    levelsOf .sw0 fiveLow.inputs = [false, false, false, false] ++ false :: [true] ∧
    levelsOf .sw1 (switched true 4#3 true).inputs = (switchRegs .sw1 (switched true 4#3 true)).deb :: [] := by decide

theorem witness_PressDoesNothing :
    (switchRegs .sw1 (switched true 4#3 false)).cnt = 4#3 ∧ (switchRegs .sw1 (switched true 4#3 false)).deb = true ∧
    (nextLevel .sw1 (switched true 4#3 false).inputs).1 = false := by decide

theorem witness_RvcupdResult :
    (nextReading .rvc ({ quiet with rvc := [some 224#8] })).1 = some 224#8 := by decide

theorem witness_VusampResult :
    ((readingsReady .audio 20 { quiet with audio := List.replicate 20 (some 0#8) }).map fun r => r.1) =
      some (List.replicate 20 0#8) := by decide

/-- The two flash counts, one for each disjunct. -/
theorem witness_OvrstartResult :
    ((1#2 : BitVec 2) = 1#2 ∨ (1#2 : BitVec 2) = 2#2) ∧ ((2#2 : BitVec 2) = 1#2 ∨ (2#2 : BitVec 2) = 2#2) := by decide

theorem witness_AnimationLength :
    ((1#2 : BitVec 2) = 1#2 ∨ (1#2 : BitVec 2) = 2#2) ∧ ((2#2 : BitVec 2) = 1#2 ∨ (2#2 : BitVec 2) = 2#2) := by decide

/-- Twenty loud readings waiting, in BatteryMonitor mode. -/
def loud : State := { base with inputs := { quiet with audio := List.replicate 20 (some 0#8), nvOk := [true] } }

theorem witness_FirstSampleAfterEnteringVuMeter :
    loud.ledMode = .batteryMonitor ∧
    (loud.vuWin[0].toNat ≤ 128 ∧ loud.vuWin[1].toNat ≤ 128 ∧ loud.vuWin[2].toNat ≤ 128 ∧ loud.vuWin[3].toNat ≤ 128) ∧
    exec (.swevt .sw0 .release) loud = .next (modeRelease loud) ∧ ∃ u, exec .vusamp (modeRelease loud) = .next u :=
  ⟨rfl, by decide, rfl, _, rfl⟩

/-- A state of the override animation. -/
def animating (o : OvrState) (cnt : BitVec 4) : State := { base with ovrState := o, ovrCnt := cnt, ovrN := 1#2 }

theorem witness_RenderOverrideStep :
    (animating .initialPause 9#4).ovrState ≠ .idle ∧ (animating .flashOn 0#4).ovrState ≠ .idle ∧
    (animating .flashOff 3#4).ovrState ≠ .idle ∧ (animating .finalPause 9#4).ovrState ≠ .idle := by decide

/-- A battery reading, with no override. -/
def charged (b : Byte) : State := { base with batt := some b }

theorem witness_RenderLowBatteryPulse :
    (charged 83#8).ovrState = .idle ∧ (charged 83#8).batt = some 83#8 ∧ (83#8 : Byte).toNat < 84 := by decide

theorem witness_RenderActiveMode :
    (charged 84#8).ovrState = .idle ∧ (charged 84#8).batt = some 84#8 ∧ 84 ≤ (84#8 : Byte).toNat := by decide

theorem witness_RenderFaultsOnBottom : State.reset.ovrState = .idle ∧ State.reset.batt = none := by decide

theorem witness_BatsampResult : (nextReading .batt { quiet with batt := [some 0#8] }).1 = some 0#8 := by decide

theorem witness_HangingSensorIsStuck :
    (nextReading .batt { quiet with batt := [none] }).1 = none ∧ (nextReading .rvc { quiet with rvc := [none] }).1 = none ∧
    readingsReady .audio 20 { quiet with audio := List.replicate 19 (some 1#8) ++ [none] } = none := by decide

theorem witness_PrefinitResult :
    Memory.wf base.sector = true ∧ (nextOk { quiet with nvOk := [true] }).1 = true ∧
    (nextOk { quiet with nvOk := [false] }).1 = false := by decide

theorem witness_PrefreadResult :
    (NewestRecord [(511, 0x0A#8)] 511 0x0A#8 ∧ okReady (512 - 511) { quiet with nvOk := [true] } = true) ∧
    (NoRecord [] ∧ okReady 512 { quiet with nvOk := List.replicate 512 true } = true) ∧
    (∀ c, 511 < c → c < 512 → isRecord (Memory.get [] c) = false) ∧
    okReady (511 - 511) { quiet with nvOk := [false] } = true ∧
    (nextOk (afterOk (511 - 511) { quiet with nvOk := [false] })).1 = false :=
  ⟨⟨last_slot_newest, by decide⟩, ⟨erased_no_record, by decide +kernel⟩, fun c _ _ => erased_no_record c (by omega),
    by decide, by decide⟩

theorem witness_PrefwriteOfEffectiveRecord :
    base.prefInit = true ∧ (0x80#8 : Byte) &&& 0x7F#8 = base.prefEff := by decide

/-- A known log with the cursor at `c`, and its next NV results. -/
def logged (c : BitVec 10) (oks : List Bool) : State := { base with prefCur := c, inputs := { quiet with nvOk := oks } }

theorem witness_PrefwriteAppends :
    Memory.wf (logged 511#10 [true]).sector = true ∧ (logged 511#10 [true]).prefInit = true ∧
    (0x02#8 : Byte) &&& 0x7F#8 ≠ (logged 511#10 [true]).prefEff ∧ (logged 511#10 [true]).prefCur.toNat < 512 ∧
    (nextOk (logged 511#10 [true]).inputs).1 = true := by decide

theorem witness_PrefwriteErasesWhenFull :
    (logged 512#10 [true, true]).prefInit = true ∧ (0x02#8 : Byte) &&& 0x7F#8 ≠ (logged 512#10 [true, true]).prefEff ∧
    (logged 512#10 [true, true]).prefCur = 512#10 ∧ okReady 2 (logged 512#10 [true, true]).inputs = true := by decide

theorem witness_PrefwriteFailures :
    ((logged 511#10 [false]).prefCur.toNat < 512 ∧ (nextOk (logged 511#10 [false]).inputs).1 = false) ∧
    ((logged 512#10 [false]).prefCur = 512#10 ∧ (nextOk (logged 512#10 [false]).inputs).1 = false) ∧
    ((logged 512#10 [true, false]).prefCur = 512#10 ∧ (nextOk (logged 512#10 [true, false]).inputs).1 = true ∧
      (nextOk (nextOk (logged 512#10 [true, false]).inputs).2).1 = false) ∧
    Memory.wf (logged 512#10 [false]).sector = true ∧ (logged 512#10 [false]).prefInit = true ∧
    (0x02#8 : Byte) &&& 0x7F#8 ≠ (logged 512#10 [false]).prefEff := by decide

theorem witness_PrefwriteRecoversCursorFirst : State.reset.prefInit = false := by decide

theorem erased_log (s : State) (h : s.sector = []) (hc : s.prefCur = 0#10) (he : s.prefEff = 0x00#8) : LogInvariant s :=
  ⟨0, ⟨by omega, fun a ha => absurd ha (by omega), fun a _ _ => by rw [h]; rfl⟩, fun _ => by rw [hc, he]; exact ⟨rfl, rfl⟩⟩

theorem witness_WriteThenReadGivesRecord :
    LogInvariant (logged 0#10 (List.replicate 514 true)) ∧ Memory.wf (logged 0#10 (List.replicate 514 true)).sector = true ∧
    (logged 0#10 (List.replicate 514 true)).prefInit = true ∧ (0x08#8 : Byte).getLsbD 7 = false ∧
    (0x08#8 : Byte) ≠ (logged 0#10 (List.replicate 514 true)).prefEff ∧
    okReady 514 (logged 0#10 (List.replicate 514 true)).inputs = true :=
  ⟨erased_log _ rfl rfl rfl, rfl, rfl, by decide, by decide, by decide +kernel⟩

theorem witness_RegistersWrittenOnlyByNamed : ∃ t, exec (.stepset 200#8) base = .next t := ⟨_, rfl⟩

theorem witness_OnlyPreferenceOpsReachSector :
    exec (.debounce .sw0) (switched true 4#3 false) = .next (debounce .sw0 (switched true 4#3 false)) ∧
    (debounce .sw0 (switched true 4#3 false)).trace =
      (switched true 4#3 false).trace ++ [.pin .sw0 false, .ev .sw0 .press] ∧
    ∀ w, Event.ev w .release ∉ [Event.pin .sw0 false, .ev .sw0 .press] :=
  ⟨rfl, by decide, fun w => by cases w <;> decide⟩

theorem reset_legal : Legal State.reset :=
  ⟨⟨by decide, by decide, by decide, by decide, by decide, Nat.zero_le _, fun h => absurd rfl h, by decide, by decide⟩,
    fun h => absurd h (by decide), fun h => absurd h (by decide), fun h => absurd h (by decide)⟩

/-- A reset requested right after a reset: a step that completes, from a state that meets every invariant. -/
def resetAgain : State := { State.reset with requests := [.rst] }

theorem resetAgain_steps : ∃ t, step resetAgain = .next t := ⟨_, rfl⟩

theorem witness_StepKeepsLegalRegisters : Legal resetAgain ∧ ∃ t, step resetAgain = .next t :=
  ⟨reset_legal, resetAgain_steps⟩

theorem witness_StepKeepsCanonicalSector : Memory.wf resetAgain.sector = true ∧ ∃ t, step resetAgain = .next t :=
  ⟨rfl, resetAgain_steps⟩

theorem witness_StepKeepsLinesIdleAndShadow :
    PinsIdle ticked ∧ DeviceShadowed { ticked with device := ⟨0#16, 0#8⟩ } ∧
    PinsIdle resetAgain ∧ DeviceShadowed resetAgain ∧ ∃ t, step resetAgain = .next t :=
  ⟨by decide, rfl, by decide, trivial, resetAgain_steps⟩

/-- A RENDER word waits, which R202's premise admits, after a reset sequence. -/
theorem witness_StepKeepsRampBase :
    (NoRampCommands (asked 0x7000#16) ∧ (asked 0x7000#16).attCur = some ((asked 0x7000#16).attPrev.setWidth 8) ∧
      ∃ t, step (asked 0x7000#16) = .next t) ∧
    NoRampCommands resetAgain ∧ resetAgain.resetPending = true ∧ ∃ t, step resetAgain = .next t :=
  ⟨⟨fun w hw => by
      obtain rfl : w = 0x7000#16 := by simpa [asked] using hw
      exact ⟨fun l h => (by cases h), fun f h => (by cases h)⟩,
    by decide, _, rfl⟩, fun w => by simp [resetAgain], rfl, resetAgain_steps⟩

/-- A RENDER word given right after the register reset, the battery empty. -/
def renderFirst : State := { State.reset with requests := [.cmd 0x7000#16] }

theorem witness_NoBottomRead :
    BattReady renderFirst ∧ renderFirst.batt = none ∧ BattReady (asked 0x7000#16) ∧ BattReady resetAgain ∧
    ∃ t, step resetAgain = .next t :=
  ⟨.inl rfl, rfl, .inr (by decide), .inl rfl, resetAgain_steps⟩

theorem witness_RunFromResetGoesOn :
    BattReady renderFirst ∧ NoReservedWords renderFirst ∧ ConversionsComplete renderFirst.inputs :=
  ⟨.inl rfl, fun w hw => by
    obtain rfl : w = 0x7000#16 := by simpa [renderFirst] using hw
    exact ⟨.render, rfl⟩, by unfold ConversionsComplete; decide⟩

/-- The last clause of ResetMeetsInvariants. -/
theorem witness_ResetMeetsInvariants : SectorErased bootingErased.sector ∧ bootingErased.prefInit = false :=
  ⟨fun _ _ => rfl, rfl⟩

/-- An append to a consistent log, by command, that records no error. -/
theorem witness_StepKeepsLogInvariant :
    LogInvariant { logged 0#10 [true] with requests := [.cmd 0xC008#16] } ∧
    (({ logged 0#10 [true] with requests := [.cmd 0xC008#16] } : State).resetPending = true ∨
      ∀ rest, ({ logged 0#10 [true] with requests := [.cmd 0xC008#16] } : State).requests ≠ .cmd 0xA000#16 :: rest) ∧
    got (fun t => t.trace) (step { logged 0#10 [true] with requests := [.cmd 0xC008#16] }) =
      some [.nvw 0#9 0x08#8 true] :=
  ⟨erased_log _ rfl rfl rfl, .inr fun rest => by simp, by decide +kernel⟩

/-- The other disjunct of its premise: a PREFINIT word that waits for the reset sequence, which reads the erased log and records no
error. -/
theorem witness_StepKeepsLogInvariant_pending :
    LogInvariant { bootingErased with requests := [.cmd 0xA000#16] } ∧
    Memory.wf ({ bootingErased with requests := [.cmd 0xA000#16] } : State).sector = true ∧
    ({ bootingErased with requests := [.cmd 0xA000#16] } : State).resetPending = true ∧
    got (fun t => (t.prefCur, t.prefInit, t.trace.any isError, t.requests))
      (step { bootingErased with requests := [.cmd 0xA000#16] }) = some (0#10, true, false, [.cmd 0xA000#16]) :=
  ⟨erased_log _ rfl rfl rfl, rfl, rfl, by decide +kernel⟩

theorem witness_PrefinitStartsLog :
    SectorErased State.reset.sector ∧ Memory.wf State.reset.sector = true ∧ (nextOk (logged 0#10 [true]).inputs).1 = true :=
  ⟨fun _ _ => rfl, by decide, by decide⟩

end Sys2Proof.Tests
end

section
/-! SUPPORT. The legal register values (R54) as a structure of named parts, each part kept by the operation that writes its
registers, and by that every step keeps them. -/

namespace Sys2Proof.Machine

/-! ### The parts of `Legal` -/

/-- The override registers are legal: the clause of `Legal` about a running animation, and its flash index (R47, R54). -/
def OverrideLegal (s : State) : Prop :=
  (s.ovrState ≠ .idle →
    (s.ovrN = 1#2 ∨ s.ovrN = 2#2) ∧ s.ovrIdx.toNat ≤ s.ovrN.toNat ∧ s.ovrCnt.toNat < ovrDuration s.ovrState) ∧
  FlashIndexLegal s

/-- The cursor is a slot or the end of the sector, and the effective byte is a record (R51, R53). -/
def PrefRegistersLegal (s : State) : Prop := s.prefCur.toNat ≤ 512 ∧ isRecord s.prefEff = true

/-- `Legal`, its parts named. -/
structure LegalRegisters (s : State) : Prop where
  count : s.tc.toNat ≤ 99
  switch : ∀ sw, (switchRegs sw s).cnt.toNat ≤ 4
  goal : s.attPrev.toNat ≤ 64
  window : ∀ (i : Nat) (hi : i < 4), s.vuWin[i].toNat ≤ 128
  pulse : s.pulseLvl.toNat ≤ Config.pulseMax
  override : OverrideLegal s
  pref : PrefRegistersLegal s

theorem legalRegisters_iff (s : State) : LegalRegisters s ↔ Legal s := by
  constructor
  · rintro ⟨htc, hsw, hatt, hwin, hpulse, hovr, hcur, hrec⟩
    obtain ⟨hanim, hidx⟩ := hovr
    exact ⟨⟨htc, hsw .sw0, hsw .sw1, hatt, ⟨hwin 0 _, hwin 1 _, hwin 2 _, hwin 3 _⟩, hpulse, hanim, hcur,
      by simpa [isRecord] using hrec⟩, hidx⟩
  · rintro ⟨⟨htc, hsw0, hsw1, hatt, ⟨hw0, hw1, hw2, hw3⟩, hpulse, hanim, hcur, heff⟩, hidx⟩
    refine ⟨htc, ?_, hatt, ?_, hpulse, ⟨hanim, hidx⟩, hcur, by simpa [isRecord] using heff⟩
    · intro sw
      cases sw
      · exact hsw0
      · exact hsw1
    · intro i hi
      match i, hi with
      | 0, _ => exact hw0
      | 1, _ => exact hw1
      | 2, _ => exact hw2
      | 3, _ => exact hw3

/-! ### The window and the pulse -/

theorem peak_toNat_le (bs : List Byte) : (BitVec.ofNat 8 (peakOf bs)).toNat ≤ 128 := by
  have hpeak := peakOf_le bs
  rw [ofNat8_toNat] <;> omega

theorem setVuWin_le {w : Vector Byte 4} {v : Byte} (p : BitVec 2) (hw : ∀ (i : Nat) (hi : i < 4), w[i].toNat ≤ 128)
    (hv : v.toNat ≤ 128) (i : Nat) (hi : i < 4) : (setVuWin p v w)[i].toNat ≤ 128 := by
  unfold setVuWin
  rw [Vector.getElem_set]
  split
  · exact hv
  · exact hw i hi

/-- The pulse stays in 0..PULSE_MAX (R46, R245). -/
theorem pulseNext_le {m : Nat} {lvl : Byte} (dir : PulseDir) (hm : m ≤ 255) (hl : lvl.toNat ≤ m) :
    (pulseNext m lvl dir).1.toNat ≤ m := by
  cases dir with
  | rising =>
    simp only [pulseNext, Config.pulseStepSize]
    split
    · exact (ofNat8_toNat hm).le
    · rw [ofNat8_toNat] <;> omega
  | falling =>
    simp only [pulseNext, Config.pulseStepSize]
    split
    · exact Nat.zero_le m
    · rw [ofNat8_toNat] <;> omega

/-! ### The override animation and the display -/

theorem ovrDuration_le (o : OvrState) : ovrDuration o ≤ 10 := by cases o <;> decide

theorem ovrDuration_pos {o : OvrState} (h : o ≠ .idle) : 0 < ovrDuration o := by
  cases o with
  | idle => exact absurd rfl h
  | _ => decide

theorem overrideLegal_of_idle {s : State} (h : s.ovrState = .idle) : OverrideLegal s :=
  ⟨fun ha => absurd h ha, by simp [h], by simp [h], by simp [h]⟩

theorem ovrStart_overrideLegal {n : BitVec 2} (s : State) (hn : n = 1#2 ∨ n = 2#2) : OverrideLegal (ovrStart n s) :=
  ⟨fun ha => ⟨hn, Nat.zero_le _, ovrDuration_pos ha⟩, by simp, by simp, by simp⟩

/-- One more render that does not reach the duration (R251). -/
theorem overrideLegal_count {s : State} (h : OverrideLegal s)
    (hne : (s.ovrCnt + 1#4).toNat ≠ ovrDuration s.ovrState) : OverrideLegal { s with ovrCnt := s.ovrCnt + 1#4 } := by
  obtain ⟨hrun, hflash⟩ := h
  refine ⟨fun ha => ?_, hflash⟩
  obtain ⟨hn, hle, hlt⟩ := hrun ha
  have hdur := ovrDuration_le s.ovrState
  have hadd : (s.ovrCnt + 1#4).toNat = s.ovrCnt.toNat + 1 := BitVec.toNat_add_of_lt (by simp; omega)
  exact ⟨hn, hle, by dsimp only; omega⟩

/-- The state that follows starts legal, whatever OVR_CNT was: it starts at 0, and OVR_IDX counts the flashes that ended, so it is OVR_N
when the last of them has (R251). -/
theorem ovrAdvance_overrideLegal {s : State} (hcount : s.ovrState ≠ .idle → s.ovrN = 1#2 ∨ s.ovrN = 2#2)
    (hindex : FlashIndexLegal s) : OverrideLegal (ovrAdvance s) := by
  obtain ⟨hfirst, hflash, -⟩ := hindex
  unfold ovrAdvance
  cases ho : s.ovrState with
  | idle => exact overrideLegal_of_idle ho
  | finalPause => exact overrideLegal_of_idle rfl
  | initialPause =>
    have hn := hcount (by simp [ho])
    have hlt : s.ovrIdx.toNat < s.ovrN.toNat := by rcases hn with hn | hn <;> simp [hfirst ho, hn]
    exact ⟨fun ha => ⟨hn, hlt.le, ovrDuration_pos ha⟩, by simp, fun _ => hlt, by simp⟩
  | flashOn =>
    have hn := hcount (by simp [ho])
    have hlt := hflash (.inl ho)
    exact ⟨fun ha => ⟨hn, hlt.le, ovrDuration_pos ha⟩, by simp, fun _ => hlt, by simp⟩
  | flashOff =>
    have hn := hcount (by simp [ho])
    have hlt := hflash (.inr ho)
    have hle : (s.ovrIdx + 1#2).toNat ≤ s.ovrN.toNat := by bv_omega
    refine ⟨fun ha => ⟨hn, hle, ovrDuration_pos ha⟩, ?_⟩
    dsimp only
    split
    next hmore => exact ⟨by simp, fun _ => BitVec.lt_def.1 hmore, by simp⟩
    next hlast => exact ⟨by simp, by simp, fun _ => by bv_omega⟩

theorem overrideStep_overrideLegal {s : State} (h : OverrideLegal s) : OverrideLegal (overrideStep s) := by
  unfold overrideStep
  dsimp only
  split
  next =>
    obtain ⟨hrun, hindex⟩ := h
    exact ovrAdvance_overrideLegal (fun ha => (hrun ha).1) hindex
  next hne => exact overrideLegal_count h hne

/-- A render with no override holds the LED, writes one colour, or shows the pulse (R240). -/
theorem renderNormal_cases (b : Byte) (s : State) :
    renderNormal b s = s ∨ (∃ c, renderNormal b s = pwmWrite c s) ∨ renderNormal b s = showPulse s := by
  unfold renderNormal renderMode
  split
  · exact .inr (.inr rfl)
  · cases s.ledMode with
    | batteryMonitor =>
      cases battClass b with
      | low => exact .inr (.inr rfl)
      | _ => exact .inr (.inl ⟨_, rfl⟩)
    | editSw1 | editSw2 => exact .inl rfl
    | _ => exact .inr (.inl ⟨_, rfl⟩)

/-! ### The preference registers -/

@[simp] theorem nvRead_prefCur (a : BitVec 9) (s : State) : (nvRead a s).2.prefCur = s.prefCur := rfl
@[simp] theorem nvRead_prefEff (a : BitVec 9) (s : State) : (nvRead a s).2.prefEff = s.prefEff := rfl

@[simp] theorem nvWrite_prefCur (a : BitVec 9) (v : Byte) (s : State) : (nvWrite a v s).2.prefCur = s.prefCur := by
  unfold nvWrite
  dsimp only
  split <;> rfl

@[simp] theorem nvWrite_prefEff (a : BitVec 9) (v : Byte) (s : State) : (nvWrite a v s).2.prefEff = s.prefEff := by
  unfold nvWrite
  dsimp only
  split <;> rfl

@[simp] theorem nvErase_prefCur (s : State) : (nvErase s).2.prefCur = s.prefCur := by
  cases h : (nextOk s.inputs).1
  · simp [nvErase_fail h]
  · simp [nvErase_ok h]

@[simp] theorem nvErase_prefEff (s : State) : (nvErase s).2.prefEff = s.prefEff := by
  cases h : (nextOk s.inputs).1
  · simp [nvErase_fail h]
  · simp [nvErase_ok h]

/-- An update that leaves PREF_CUR and PREF_EFF keeps them legal. -/
theorem PrefRegistersLegal.of_eq {s t : State} (h : PrefRegistersLegal s) (hcur : t.prefCur = s.prefCur)
    (heff : t.prefEff = s.prefEff) : PrefRegistersLegal t := by
  rw [PrefRegistersLegal, hcur, heff]
  exact h

theorem prefInitialise_prefRegistersLegal {s : State} (h : PrefRegistersLegal s) :
    PrefRegistersLegal (prefInitialise s).2 := by
  unfold prefInitialise
  dsimp only
  split
  · exact ⟨by simp, by simp [isRecord]⟩
  · exact h.of_eq (by simp) (by simp)

theorem prefScan_prefRegistersLegal {n : Nat} {s : State} (hn : n ≤ 512) (h : PrefRegistersLegal s) :
    PrefRegistersLegal (prefScan n s).2 := by
  induction n generalizing s with
  | zero => exact ⟨by simp [prefScan], by simp [prefScan, isRecord]⟩
  | succ n ih =>
    have hread : PrefRegistersLegal (nvRead (BitVec.ofNat 9 n) s).2 := h.of_eq (by simp) (by simp)
    unfold prefScan
    dsimp only
    split
    · exact hread.of_eq (by simp) (by simp)
    · split
      next b _ hrec => exact ⟨by simp only [prefFound_prefCur, BitVec.toNat_ofNat]; omega, hrec⟩
      next => exact ih (by omega) hread

theorem prefAppend_prefRegistersLegal {c : Byte} {s : State} (hc : isRecord c = true) (hlt : s.prefCur.toNat < 512)
    (h : PrefRegistersLegal s) : PrefRegistersLegal (prefAppend c s).2 := by
  unfold prefAppend
  dsimp only
  split
  · exact ⟨by simp only [prefAppended_prefCur, BitVec.toNat_add, BitVec.toNat_ofNat]; omega, hc⟩
  · exact h.of_eq (by simp) (by simp)

theorem prefCommit_prefRegistersLegal {c : Byte} {s : State} (hc : isRecord c = true) (h : PrefRegistersLegal s) :
    PrefRegistersLegal (prefCommit c s).2 := by
  have ⟨hcur, heff⟩ := h
  unfold prefCommit
  split
  · exact h
  · split
    · dsimp only
      split
      · exact prefAppend_prefRegistersLegal hc (by simp) ⟨by simp, heff⟩
      · exact h.of_eq (by simp) (by simp)
    next hfull =>
      refine prefAppend_prefRegistersLegal hc ?_ h
      bv_omega

theorem prefRead_prefRegistersLegal {s : State} (h : PrefRegistersLegal s) : PrefRegistersLegal (prefRead s).2 :=
  prefScan_prefRegistersLegal le_rfl h

theorem prefWrite_prefRegistersLegal (record : Byte) {s : State} (h : PrefRegistersLegal s) :
    PrefRegistersLegal (prefWrite record s).2 := by
  have hc := isRecord_candidate record
  unfold prefWrite
  dsimp only
  split
  · exact prefCommit_prefRegistersLegal hc h
  · split
    · exact prefCommit_prefRegistersLegal hc (prefRead_prefRegistersLegal h)
    · exact prefRead_prefRegistersLegal h

/-! ### Every shared operation keeps the legal registers -/

/-- An operation of the preference log writes no other register R54 bounds. -/
theorem LegalRegisters.of_prefOnly {s t : State} (h : LegalRegisters s) (ht : PrefOnly s t)
    (hpref : PrefRegistersLegal t) : LegalRegisters t := by
  obtain ⟨cur, ini, eff, sec, inp, es, -, rfl⟩ := ht
  exact { h with pref := hpref }

theorem LegalRegisters.setSwitchRegs {s : State} (sw : SwitchId) {r : SwitchRegs} (hr : r.cnt.toNat ≤ 4)
    (h : LegalRegisters s) : LegalRegisters (setSwitchRegs sw r s) := by
  have hswitch : ∀ v, (switchRegs v (Machine.setSwitchRegs sw r s)).cnt.toNat ≤ 4 := by
    intro v
    by_cases hv : v = sw
    · subst hv
      simpa using hr
    · rw [switchRegs_setSwitchRegs_ne s v sw r hv]
      exact h.switch v
  cases sw <;> exact { h with switch := hswitch }

theorem LegalRegisters.pwmWrite (c : Rgb) {s : State} (h : LegalRegisters s) : LegalRegisters (pwmWrite c s) :=
  { h with }

theorem LegalRegisters.showPulse {s : State} (h : LegalRegisters s) : LegalRegisters (showPulse s) :=
  { h with pulse := pulseNext_le _ pulseMax_range.2 h.pulse }

/-- RENDER writes the LED, the pulse or the override registers; the override registers only while an animation runs (R240). -/
theorem LegalRegisters.render {s t : State} (hr : render s = .next t) (h : LegalRegisters s) : LegalRegisters t := by
  unfold Machine.render at hr
  split at hr
  · cases hr
    obtain ⟨o, k, i, c, he⟩ := overrideStep_frame s
    have hovr := overrideStep_overrideLegal h.override
    rw [he] at hovr ⊢
    exact { h with override := hovr }
  · split at hr
    · cases hr
    · cases hr
      rcases renderNormal_cases _ s with he | ⟨c, he⟩ | he <;> rw [he]
      · exact h
      · exact h.pwmWrite c
      · exact h.showPulse

/-- Every shared operation keeps the legal registers. -/
theorem legalRegisters_keptByParts : KeptByParts LegalRegisters where
  outside _ _ _ _ _ h := { h with }
  count _ _ hn h := { h with count := by simp only [BitVec.toNat_ofNat]; omega }
  switch s sw r hr h := h.setSwitchRegs sw (hr (h.switch sw))
  led _ _ h := { h with }
  curve _ _ h := { h with }
  vuState _ _ h := { h with }
  frame s level h := by
    obtain ⟨dev, es, he⟩ := stepSet_frame level s
    rw [he]
    exact { h with }
  goal _ _ hg h := { h with goal := (ofNat7_toNat hg).trans_le hg }
  sample _ bs h := { h with window := setVuWin_le _ h.window (peak_toNat_le bs) }
  battery _ _ h := { h with }
  override s _ hn h := { h with override := ovrStart_overrideLegal s hn }
  display _ _ hr h := h.render hr
  initialise s h := h.of_prefOnly (prefInitialise_prefOnly s) (prefInitialise_prefRegistersLegal h.pref)
  scan s h := h.of_prefOnly (prefRead_prefOnly s) (prefRead_prefRegistersLegal h.pref)
  append s r h := h.of_prefOnly (prefWrite_prefOnly r s) (prefWrite_prefRegistersLegal r h.pref)

theorem registerReset_legalRegisters (s : State) : LegalRegisters (registerReset s) where
  count := Nat.zero_le _
  switch sw := by cases sw <;> exact Nat.zero_le _
  goal := Nat.zero_le _
  window := show ∀ (i : Nat) (hi : i < 4), (#v[0#8, 0#8, 0#8, 0#8] : Vector Byte 4)[i].toNat ≤ 128 by decide
  pulse := Nat.zero_le _
  override := overrideLegal_of_idle rfl
  pref := ⟨Nat.zero_le _, show isRecord 0x00#8 = true by decide⟩

/-- Settles O50, part by part (`KeptByParts`): each shared operation keeps the legal registers, so every step does. -/
theorem stepKeepsLegalRegisters : Obligations.StepKeepsLegalRegisters := by
  intro s t hs hstep
  have hlegal : LegalRegisters t :=
    legalRegisters_keptByParts.step (fun u _ => registerReset_legalRegisters u) hstep ((legalRegisters_iff s).2 hs)
  exact (legalRegisters_iff t).1 hlegal

end Sys2Proof.Machine
end

section
/-! SUPPORT. Which words the decoder accepts, and which row of the opcode table a word is one of: both are told from the word's
fields alone (R121, R130, R131). -/

namespace Sys2Proof

/-! ### What R121 names for an OP -/

/-- The MOD bits R121 names for an OP. -/
def namedMod (op : BitVec 4) : BitVec 4 :=
  if op = 3#4 then 0b0011#4 else if op = 2#4 ∨ op = 4#4 ∨ op = 9#4 then 0b0001#4 else 0b0000#4

/-- The OPs that take DATA: STEPSET and PREFWRITE (R120). -/
def takesData (op : BitVec 4) : Bool := op == 5#4 || op == 12#4

/-- MOD and DATA have no 1 in a bit R121 does not name for the word's OP. -/
def FieldsNamed (w : Word) : Prop :=
  modField w &&& ~~~namedMod (opField w) = 0#4 ∧ (takesData (opField w) = true ∨ dataField w = 0#8)

/-- The named MOD bits are the low ones, so a MOD with no other bit set is one below a bound. -/
theorem modBits_named_iff (op m : BitVec 4) :
    m &&& ~~~namedMod op = 0#4 ↔
      m.toNat < if op.toNat = 3 then 4 else if op.toNat = 2 ∨ op.toNat = 4 ∨ op.toNat = 9 then 2 else 1 := by
  revert op m
  decide

theorem takesData_iff (op : BitVec 4) : takesData op = true ↔ op.toNat = 5 ∨ op.toNat = 12 := by
  revert op
  decide

/-! ### The decoder, by OP -/

/-- Below 0xD the decoder accepts one instruction, whose row stands at the place of the OP, under the conditions R121 gives the OP. -/
theorem decode_eq_accept {w : Word} (h : (opField w).toNat < 13) :
    ∃ i, decode w = accept (namedMod (opField w)) (takesData (opField w)) w i ∧
      opTable[(opField w).toNat]?.map (·.mnemonic) = some (mnemonicOf i) := by
  unfold decode
  generalize opField w = op at h ⊢
  match op with
  | 0#4 | 1#4 | 2#4 | 3#4 | 4#4 | 5#4 | 6#4 | 7#4 | 8#4 | 9#4 | 10#4 | 11#4 | 12#4 => exact ⟨_, rfl, rfl⟩
  | 13#4 | 14#4 | 15#4 => exact absurd h (by decide)

theorem decode_of_op_ge {w : Word} (h : 13 ≤ (opField w).toNat) : decode w = .error .op := by
  have hop : opField w = 13#4 ∨ opField w = 14#4 ∨ opField w = 15#4 := by bv_omega
  unfold decode
  rcases hop with hop | hop | hop <;> rw [hop] <;> rfl

/-- What a decoded word's fields are, and where the row of its instruction stands. -/
theorem fields_of_decode {w : Word} {i : Instr} (hd : decode w = .ok i) :
    FieldsNamed w ∧ ∃ r, opTable[(opField w).toNat]? = some r ∧ r.mnemonic = mnemonicOf i := by
  have hop : (opField w).toNat < 13 := by
    by_contra hge
    rw [decode_of_op_ge (by omega)] at hd
    cases hd
  obtain ⟨j, hj, hrow⟩ := decode_eq_accept hop
  obtain ⟨hmod, hdata, rfl⟩ := accept_eq_ok.1 (hj.symm.trans hd)
  exact ⟨⟨hmod, hdata⟩, Option.map_eq_some_iff.1 hrow⟩

/-- The decoder accepts exactly the words with an OP below 0xD and no 1 in an unnamed bit (R130). -/
theorem decode_accepts_iff (w : Word) : (∃ i, decode w = .ok i) ↔ (opField w).toNat < 13 ∧ FieldsNamed w := by
  constructor
  · rintro ⟨i, hd⟩
    obtain ⟨hnamed, r, hrow, -⟩ := fields_of_decode hd
    exact ⟨(List.getElem?_eq_some_iff.1 hrow).1, hnamed⟩
  · rintro ⟨hop, hmod, hdata⟩
    obtain ⟨i, hi, -⟩ := decode_eq_accept hop
    exact ⟨i, hi.trans (accept_eq_ok.2 ⟨hmod, hdata, rfl⟩)⟩

theorem decode_rejects_iff (w : Word) : (∃ e, decode w = .error e) ↔ ¬ ∃ i, decode w = .ok i := by
  cases decode w <;> simp

/-! ### The rows of the table, by fields -/

theorem commandWord_and (op op' m m' : BitVec 4) (d d' : Byte) :
    commandWord op m d &&& commandWord op' m' d' = commandWord (op &&& op') (m &&& m') (d &&& d') :=
  BitVec.and_append.trans (congrArg (· ++ (d &&& d')) BitVec.and_append)

theorem commandWord_inj {op op' m m' : BitVec 4} {d d' : Byte} :
    commandWord op m d = commandWord op' m' d' ↔ op = op' ∧ m = m' ∧ d = d' := by
  constructor
  · intro h
    exact ⟨by simpa using congrArg opField h, by simpa using congrArg modField h, by simpa using congrArg dataField h⟩
  · rintro ⟨rfl, rfl, rfl⟩
    rfl

/-- The row at the place of an OP fixes OP, every MOD bit R121 does not name, and DATA where the OP takes none (R131). -/
theorem opTable_row {op : BitVec 4} {r : OpRow} (h : opTable[op.toNat]? = some r) :
    r.pattern = commandWord op 0#4 0#8 ∧
      r.mask = commandWord 0xF#4 (~~~namedMod op) (if takesData op then 0x00#8 else 0xFF#8) := by
  match op with
  | 0#4 | 1#4 | 2#4 | 3#4 | 4#4 | 5#4 | 6#4 | 7#4 | 8#4 | 9#4 | 10#4 | 11#4 | 12#4 => cases h; decide
  | 13#4 | 14#4 | 15#4 => cases h

theorem exists_op_of_mem_opTable {r : OpRow} (hr : r ∈ opTable) : ∃ op : BitVec 4, opTable[op.toNat]? = some r := by
  obtain ⟨n, hn⟩ := List.mem_iff_getElem?.1 hr
  have hlt : n < 13 := (List.getElem?_eq_some_iff.1 hn).1
  refine ⟨BitVec.ofNat 4 n, ?_⟩
  rwa [BitVec.toNat_ofNat, Nat.mod_eq_of_lt (by omega)]

/-- A row's words are those with the row's OP and no 1 in an unnamed bit (R131). -/
theorem rowMatches_row_iff {op : BitVec 4} {r : OpRow} (h : opTable[op.toNat]? = some r) (w : Word) :
    rowMatches r w = true ↔ opField w = op ∧ FieldsNamed w := by
  obtain ⟨hpattern, hmask⟩ := opTable_row h
  have hfields : rowMatches r w = true ↔
      opField w = op ∧ modField w &&& ~~~namedMod op = 0#4 ∧
        dataField w &&& (if takesData op then 0x00#8 else 0xFF#8) = 0#8 := by
    rw [rowMatches, beq_iff_eq, hpattern, hmask]
    conv_lhs => rw [← commandWord_of_fields w, commandWord_and, commandWord_inj]
    rw [show (0xF#4 : BitVec 4) = BitVec.allOnes 4 from rfl, BitVec.and_allOnes]
  have hdata : dataField w &&& (if takesData op then 0x00#8 else 0xFF#8) = 0#8 ↔ takesData op = true ∨ dataField w = 0#8 := by
    cases takesData op with
    | true => simp
    | false => simp [show (0xFF#8 : Byte) = BitVec.allOnes 8 from rfl, -BitVec.reduceAllOnes]
  rw [hfields, hdata, FieldsNamed]
  exact and_congr_right fun hop => by rw [hop]

/-- A word is a row's exactly when that row stands at the place of the word's OP and no unnamed bit is 1. -/
theorem rowMatches_iff {r : OpRow} (hr : r ∈ opTable) (w : Word) :
    rowMatches r w = true ↔ opTable[(opField w).toNat]? = some r ∧ FieldsNamed w := by
  obtain ⟨op, hop⟩ := exists_op_of_mem_opTable hr
  rw [rowMatches_row_iff hop]
  constructor
  · rintro ⟨rfl, hnamed⟩
    exact ⟨hop, hnamed⟩
  · rintro ⟨hrow, hnamed⟩
    have hpattern := (opTable_row hrow).1.symm.trans (opTable_row hop).1
    exact ⟨(commandWord_inj.1 hpattern).1, hnamed⟩

/-- No word is in two rows (R131). -/
theorem rowMatches_unique {w : Word} {r q : OpRow} (hr : r ∈ opTable) (hq : q ∈ opTable)
    (hrw : rowMatches r w = true) (hqw : rowMatches q w = true) : r = q := by
  obtain ⟨hrow, -⟩ := (rowMatches_iff hr w).1 hrw
  obtain ⟨hrow', -⟩ := (rowMatches_iff hq w).1 hqw
  exact Option.some.inj (hrow.symm.trans hrow')

theorem opTable_nodup : opTable.Nodup := by decide

/-- The row a word matches is the only one in the list of those it matches. -/
theorem filter_rowMatches {w : Word} {r : OpRow} (hr : r ∈ opTable) (hrw : rowMatches r w = true) :
    (opTable.filter fun q => rowMatches q w) = [r] := by
  have honly : ∀ q ∈ opTable, rowMatches q w = (q == r) := by
    intro q hq
    rw [Bool.eq_iff_iff, beq_iff_eq]
    exact ⟨fun hqw => rowMatches_unique hq hr hqw hrw, fun h => h ▸ hrw⟩
  rw [List.filter_congr honly, List.filter_beq, List.count_eq_one_of_mem opTable_nodup hr, List.replicate_one]

/-- A decoded word is in the row of its instruction's mnemonic (R131). -/
theorem exists_row_of_decode {w : Word} {i : Instr} (hd : decode w = .ok i) :
    ∃ r ∈ opTable, rowMatches r w = true ∧ r.mnemonic = mnemonicOf i := by
  obtain ⟨hnamed, r, hrow, hname⟩ := fields_of_decode hd
  have hr := List.mem_of_getElem? hrow
  exact ⟨r, hr, (rowMatches_iff hr w).2 ⟨hrow, hnamed⟩, hname⟩

/-- A word of some row decodes (R131). -/
theorem decode_accepts_of_rowMatches {w : Word} {r : OpRow} (hr : r ∈ opTable) (hrw : rowMatches r w = true) :
    ∃ i, decode w = .ok i := by
  obtain ⟨hrow, hnamed⟩ := (rowMatches_iff hr w).1 hrw
  exact (decode_accepts_iff w).2 ⟨(List.getElem?_eq_some_iff.1 hrow).1, hnamed⟩

/-- Settles O3: a word's fields tell both whether it decodes and its only row. -/
theorem everyWordOneRowOrReserved : Obligations.EveryWordOneRowOrReserved := by
  intro w
  refine ⟨?_, fun r hr q hq => rowMatches_unique hr hq⟩
  by_cases hd : ∃ i, decode w = .ok i
  · obtain ⟨i, hi⟩ := hd
    obtain ⟨r, hr, hrw, hname⟩ := exists_row_of_decode hi
    exact .inl ⟨i, hi, by rw [filter_rowMatches hr hrw, List.map_singleton, hname]⟩
  · refine .inr ⟨(decode_rejects_iff w).2 hd, fun r hr => ?_⟩
    rw [← Bool.not_eq_true]
    exact fun hrw => hd (decode_accepts_of_rowMatches hr hrw)

end Sys2Proof
end

section
/-! SUPPORT. A step refuses nothing but a reserved command word: no operation refuses, so the refusal is the decoder's (R130, R338). -/

namespace Sys2Proof.Machine

/-! ### No operation refuses -/

/-- The operation completes or faults. -/
def NotRefused (r : Result) : Prop := ∀ e, r ≠ .refused e

theorem notRefused_next (s : State) : NotRefused (.next s) := fun _ h => by cases h

theorem notRefused_fault (e : Fault) : NotRefused (.fault e) := fun _ h => by cases h

theorem NotRefused.andThen {r : Result} {f : State → Result} (hr : NotRefused r) (hf : ∀ u, NotRefused (f u)) :
    NotRefused (andThen r f) := by
  cases r with
  | next u => exact hf u
  | fault e => exact notRefused_fault e
  | refused e => exact absurd rfl (hr e)

theorem rvcUpdate_notRefused (force : Bool) (s : State) : NotRefused (rvcUpdate force s) := by
  unfold rvcUpdate
  split
  · exact notRefused_fault _
  · exact notRefused_next _

theorem batSample_notRefused (s : State) : NotRefused (batSample s) := by
  unfold batSample
  split
  · exact notRefused_fault _
  · exact notRefused_next _

theorem vuSample_notRefused (s : State) : NotRefused (vuSample s) := by
  unfold vuSample
  split
  · exact notRefused_fault _
  · exact notRefused_next _

theorem render_notRefused (s : State) : NotRefused (render s) := by
  unfold render
  split
  · exact notRefused_next _
  · split
    · exact notRefused_fault _
    · exact notRefused_next _

theorem fifthTick_notRefused (s : State) : NotRefused (fifthTick s) := by
  refine (rvcUpdate_notRefused false s).andThen fun u => NotRefused.andThen ?_ render_notRefused
  split
  · exact vuSample_notRefused u
  · exact notRefused_next u

theorem tickOp_notRefused (s : State) : NotRefused (tickOp s) := by
  refine NotRefused.andThen ?_ fun u => ?_
  · split
    · exact fifthTick_notRefused _
    · exact notRefused_next _
  · split
    · exact batSample_notRefused u
    · exact notRefused_next u

/-- Every instruction has its meaning: none is refused. -/
theorem exec_notRefused (i : Instr) (s : State) : NotRefused (exec i s) := by
  cases i with
  | tick => exact tickOp_notRefused s
  | rvcupd force => exact rvcUpdate_notRefused force s
  | vusamp => exact vuSample_notRefused s
  | render => exact render_notRefused s
  | batsamp => exact batSample_notRefused s
  | nop | debounce _ | swevt _ _ | stepset _ | ovrstart _ | prefinit | prefread | prefwrite _ => exact notRefused_next _

/-! ### The step that takes a word -/

/-- A command word is refused exactly when the decoder gives a reason, with that reason. -/
theorem runCommand_eq_refused {w : Word} {s : State} {e : Reserved} :
    runCommand w s = .refused (.reservedCommand e w) ↔ decode w = .error e := by
  unfold runCommand
  cases hd : decode w with
  | ok i => simp [exec_notRefused i s _]
  | error e' => simp

/-- With no reset sequence pending the step runs the command word that is next (R361). -/
theorem step_eq_runCommand {s : State} {w : Word} {rest : List Request} (hreq : s.requests = .cmd w :: rest)
    (hpend : s.resetPending = false) : step s = runCommand w (beginOp rest s) := by
  simp [step, takeRequest, takeWord, hreq, hpend]

theorem op_mod_data_toNat (w : Word) :
    (opField w).toNat = w.toNat / 4096 ∧ (modField w).toNat = w.toNat / 256 % 16 ∧
      (dataField w).toNat = w.toNat % 256 := by
  have hw := commandWord_toNat (opField w) (modField w) (dataField w)
  rw [commandWord_of_fields] at hw
  have hm := (modField w).isLt
  have hd := (dataField w).isLt
  omega

/-- Settles O4: the step is refused exactly when the decoder rejects the word, which the word's fields tell. -/
theorem reservedWordsRefused : Obligations.ReservedWordsRefused := by
  intro s w rest hreq hpend op modifier data named
  obtain ⟨hop, hmod, hdata⟩ := op_mod_data_toNat w
  have hnamed : FieldsNamed w ↔ modifier < named ∧ ((op = 5 ∨ op = 12) ∨ data = 0) := by
    rw [FieldsNamed, modBits_named_iff, takesData_iff, ← BitVec.toNat_inj, hop, hmod, hdata]
    rfl
  rw [step_eq_runCommand hreq hpend]
  simp only [runCommand_eq_refused]
  rw [decode_rejects_iff, decode_accepts_iff, hnamed, hop]
  omega

end Sys2Proof.Machine
end

section
/-! SUPPORT. The tick: each part of TICK is the meaning of the instruction of the same name, so TICK is a sequence of operations the
block can also be asked for one by one (R160, R165). -/

namespace Sys2Proof.Machine

/-! ### The instructions TICK is made of, by their meanings -/

@[simp] theorem exec_nop (s : State) : exec .nop s = .next s := rfl
@[simp] theorem exec_tick (s : State) : exec .tick s = tickOp s := rfl
@[simp] theorem exec_debounce (sw : SwitchId) (s : State) : exec (.debounce sw) s = .next (debounce sw s) := rfl
@[simp] theorem exec_rvcupd (force : Bool) (s : State) : exec (.rvcupd force) s = rvcUpdate force s := rfl
@[simp] theorem exec_vusamp (s : State) : exec .vusamp s = vuSample s := rfl
@[simp] theorem exec_render (s : State) : exec .render s = render s := rfl
@[simp] theorem exec_batsamp (s : State) : exec .batsamp s = batSample s := rfl

/-- The 5th-tick group is RVCUPD, VUSAMP in VuMeter mode, and RENDER (R160, R161). -/
theorem fifthTick_eq_exec (s : State) :
    fifthTick s =
      andThen (exec (.rvcupd false) s) fun s1 =>
        andThen (if s1.ledMode = .vuMeter then exec .vusamp s1 else .next s1) fun s2 => exec .render s2 := by
  simp only [fifthTick, exec_rvcupd, exec_vusamp, exec_render]

/-- Settles O12. -/
theorem nopDoesNothing : Obligations.NopDoesNothing := exec_nop

/-- Settles O13: a debounce always answers, so running the two in sequence is their composition, and the 5th-tick group is its three
instructions. -/
theorem tickRunsSubOperations : Obligations.TickRunsSubOperations := by
  intro s n
  have hn : tickCount s = n := rfl
  rw [exec_tick, tickOp, hn]
  simp only [exec_debounce, andThen_next, ← fifthTick_eq_exec, exec_batsamp]

end Sys2Proof.Machine
end

section
/-! SUPPORT. The debouncer and its handlers: the three cases of DEBOUNCE, what a handler may write (R180, R183 to R185), and the
counting of samples as a fold over the levels drawn (R186). -/

namespace Sys2Proof.Machine

@[simp] theorem exec_swevt (sw : SwitchId) (e : Edge) (s : State) : exec (.swevt sw e) s = .next (switchEvent sw e s) := rfl
@[simp] theorem exec_prefwrite (r : Byte) (s : State) : exec (.prefwrite r) s = .next (prefWrite r s).2 := rfl

/-! ### The handlers -/

/-- What the mode-release handler writes before it persists the record (R183). -/
def advanceMode (s : State) : State :=
  { s with
    ledMode := nextLedMode s.ledMode
    vuState := if nextLedMode s.ledMode = .vuMeter then 0xFFFF#16 else s.vuState }

/-- What the curve-release handler writes before it persists the record (R184). -/
def toggleCurve (s : State) : State :=
  ovrStart (curveFlashes (otherRvcMode s.rvcMode)) { s with rvcMode := otherRvcMode s.rvcMode }

theorem switchEvent_release_sw0 (s : State) : switchEvent .sw0 .release s = persistModes (advanceMode s) := by
  change modeRelease s = _
  unfold modeRelease advanceMode
  by_cases hvu : nextLedMode s.ledMode = .vuMeter <;> simp [hvu]

theorem switchEvent_release_sw1 (s : State) : switchEvent .sw1 .release s = persistModes (toggleCurve s) := rfl

theorem nextLedMode_eq (l : LedMode) : nextLedMode l = ledOfCode (BitVec.ofNat 3 (((ledCode l).toNat + 1) % 8)) := by
  cases l <;> rfl

theorem curveFlashes_eq (r : RvcMode) : curveFlashes r = if r = .defaultWithMute then 1#2 else 2#2 := by
  cases r <;> rfl

theorem encodeRecord_eq (r : RvcMode) (l : LedMode) : encodeRecord r l = BitVec.ofNat 8 (recordNumber r l) := by
  cases r <;> cases l <;> rfl

/-- Persisting is the PREFWRITE of the record of the modes in force (R304). -/
theorem exec_prefwrite_modes (s : State) :
    exec (.prefwrite (BitVec.ofNat 8 (recordNumber s.rvcMode s.ledMode))) s = .next (persistModes s) := by
  rw [exec_prefwrite, ← encodeRecord_eq]
  rfl

theorem persistModes_prefOnly (s : State) : PrefOnly s (persistModes s) := prefWrite_prefOnly _ s

/-- A handler writes LEDMODE, RVCMODE, VU_STATE and the override registers, and what a preference operation may write. -/
theorem switchEvent_frame (sw : SwitchId) (e : Edge) (s : State) :
    ∃ led rvc vu o k i n,
      PrefOnly
        { s with
          ledMode := led, rvcMode := rvc, vuState := vu
          ovrState := o, ovrCnt := k, ovrIdx := i, ovrN := n }
        (switchEvent sw e s) := by
  cases e with
  | press => exact ⟨s.ledMode, s.rvcMode, s.vuState, s.ovrState, s.ovrCnt, s.ovrIdx, s.ovrN, PrefOnly.refl s⟩
  | release =>
    cases sw with
    | sw0 =>
      rw [switchEvent_release_sw0]
      exact ⟨_, s.rvcMode, _, s.ovrState, s.ovrCnt, s.ovrIdx, s.ovrN, persistModes_prefOnly (advanceMode s)⟩
    | sw1 =>
      rw [switchEvent_release_sw1]
      exact ⟨s.ledMode, _, s.vuState, _, _, _, _, persistModes_prefOnly (toggleCurve s)⟩

@[simp] theorem switchEvent_switchRegs (v sw : SwitchId) (e : Edge) (s : State) :
    switchRegs v (switchEvent sw e s) = switchRegs v s := by
  obtain ⟨_, _, _, _, _, _, _, _, _, _, _, _, _, -, ht⟩ := switchEvent_frame sw e s
  rw [ht]
  cases v <;> rfl

@[simp] theorem switchEvent_levelsOf (v sw : SwitchId) (e : Edge) (s : State) :
    levelsOf v (switchEvent sw e s).inputs = levelsOf v s.inputs := by
  obtain ⟨_, _, _, _, _, _, _, _, _, _, _, _, _, hdraws, ht⟩ := switchEvent_frame sw e s
  rw [ht]
  exact hdraws.levelsOf v

/-! ### The three cases of DEBOUNCE -/

section
variable {sw : SwitchId} {s : State}

/-- A sample equal to the debounced state clears the count. -/
theorem debounce_of_eq (h : (nextLevel sw s.inputs).1 = (switchRegs sw s).deb) :
    debounce sw s =
      setSwitchRegs sw ⟨(nextLevel sw s.inputs).1, (switchRegs sw s).deb, 0#3⟩ (pinRead sw s).2 := by
  simp [debounce, pinRead_fst, h]

/-- A differing sample before the fifth counts. -/
theorem debounce_of_ne (h : (nextLevel sw s.inputs).1 ≠ (switchRegs sw s).deb)
    (hcnt : (switchRegs sw s).cnt.toNat ≠ 4) :
    debounce sw s =
      setSwitchRegs sw ⟨(nextLevel sw s.inputs).1, (switchRegs sw s).deb, (switchRegs sw s).cnt + 1#3⟩
        (pinRead sw s).2 := by
  have hfifth : (switchRegs sw s).cnt.toNat + 1 ≠ Config.debN := fun h5 => hcnt (Nat.succ.inj h5)
  simp [debounce, pinRead_fst, h, hfifth]

/-- The fifth differing sample commits, reports the edge and runs its handler. -/
theorem debounce_of_fifth (h : (nextLevel sw s.inputs).1 ≠ (switchRegs sw s).deb)
    (hcnt : (switchRegs sw s).cnt.toNat = 4) :
    debounce sw s =
      switchEvent sw (edgeOfLevel (nextLevel sw s.inputs).1)
        (setSwitchRegs sw ⟨(nextLevel sw s.inputs).1, (nextLevel sw s.inputs).1, 0#3⟩
          (emit [.ev sw (edgeOfLevel (nextLevel sw s.inputs).1)] (pinRead sw s).2)) := by
  have hemit : ∀ r es t, emit es (setSwitchRegs sw r t) = setSwitchRegs sw r (emit es t) := by
    intro r es t
    cases sw <;> rfl
  simp [debounce, pinRead_fst, h, hcnt, hemit]

end

/-- Settles O16: its clauses are the three cases. -/
theorem debounceResult : Obligations.DebounceResult := by
  intro sw s raw r s1 edge
  refine ⟨fun h => ?_, fun h hcnt => ?_, fun h hcnt => ?_, debounce sw s, rfl⟩
  · exact congrArg _ (debounce_of_eq h)
  · exact congrArg _ (debounce_of_ne h hcnt)
  · exact congrArg _ (debounce_of_fifth h hcnt)

/-- Settles O18: the committing case, whose handler is the identity on a press. -/
theorem pressDoesNothing : Obligations.PressDoesNothing := by
  intro sw s
  refine ⟨rfl, fun hcnt hdeb hraw => ?_⟩
  have hcommit := debounce_of_fifth (sw := sw) (s := s) (by rw [hraw, hdeb]; decide) (by rw [hcnt]; rfl)
  rw [exec_debounce, hcommit, pinRead_snd, hraw, emit_emit]
  rfl

/-- Settles O19: the handler persists on the state `advanceMode` gives. -/
theorem modeReleaseResult : Obligations.ModeReleaseResult := by
  intro s mode s1
  have hs1 : s1 = advanceMode s := by simp only [s1, mode, advanceMode, nextLedMode_eq]
  refine ⟨persistModes s1, ?_, exec_prefwrite_modes s1, persistModes_prefOnly s1⟩
  rw [exec_swevt, switchEvent_release_sw0, hs1]

/-- Settles O20: the handler persists on the state `toggleCurve` gives. -/
theorem curveReleaseResult : Obligations.CurveReleaseResult := by
  intro s mode n s1
  have hmode : otherRvcMode s.rvcMode = mode := by cases h : s.rvcMode <;> simp [mode, otherRvcMode, h]
  have hs1 : s1 = toggleCurve s := by simp only [s1, n, toggleCurve, ovrStart, hmode, curveFlashes_eq]
  refine ⟨persistModes s1, ?_, exec_prefwrite_modes s1, persistModes_prefOnly s1⟩
  rw [exec_swevt, switchEvent_release_sw1, hs1]

/-! ### Counting samples -/

/-- The debouncer registers after one more sample (R180). -/
def sampleRegs (r : SwitchRegs) (raw : Bool) : SwitchRegs :=
  if raw = r.deb then ⟨raw, r.deb, 0#3⟩
  else if r.cnt.toNat = 4 then ⟨raw, raw, 0#3⟩
  else ⟨raw, r.deb, r.cnt + 1#3⟩

theorem debounce_switchRegs (sw : SwitchId) (s : State) :
    switchRegs sw (debounce sw s) = sampleRegs (switchRegs sw s) (nextLevel sw s.inputs).1 := by
  unfold sampleRegs
  split
  next h => simp [debounce_of_eq h]
  next h =>
    split
    next hcnt => simp [debounce_of_fifth h hcnt]
    next hcnt => simp [debounce_of_ne h hcnt]

/-- A debounce uses up one level of its switch, its handler none. -/
theorem debounce_levelsOf (sw : SwitchId) (s : State) :
    levelsOf sw (debounce sw s).inputs = levelsOf sw (nextLevel sw s.inputs).2 := by
  by_cases h : (nextLevel sw s.inputs).1 = (switchRegs sw s).deb
  · simp [debounce_of_eq h, pinRead_snd]
  · by_cases hcnt : (switchRegs sw s).cnt.toNat = 4
    · simp [debounce_of_fifth h hcnt, pinRead_snd]
    · simp [debounce_of_ne h hcnt, pinRead_snd]

theorem debounce_scripted {sw : SwitchId} {s : State} {x : Bool} {xs : List Bool} (h : levelsOf sw s.inputs = x :: xs) :
    switchRegs sw (debounce sw s) = sampleRegs (switchRegs sw s) x ∧ levelsOf sw (debounce sw s).inputs = xs := by
  obtain ⟨hx, hxs⟩ := nextLevel_scripted h
  rw [debounce_switchRegs, debounce_levelsOf, hx, hxs]
  exact ⟨rfl, rfl⟩

/-- Debouncing as often as there are scripted levels folds them into the switch's registers. -/
theorem execTimes_debounce {sw : SwitchId} {s : State} {raws rest : List Bool} (h : levelsOf sw s.inputs = raws ++ rest) :
    ∃ t, execTimes (.debounce sw) raws.length s = .next t ∧
      switchRegs sw t = raws.foldl sampleRegs (switchRegs sw s) ∧ levelsOf sw t.inputs = rest := by
  induction raws generalizing s with
  | nil => exact ⟨s, rfl, rfl, h⟩
  | cons x xs ih =>
    obtain ⟨hregs, hlevels⟩ := debounce_scripted h
    rw [List.foldl_cons, ← hregs]
    exact ih hlevels

/-- Fewer than five samples that differ from the debounced state are counted. -/
theorem foldl_sampleRegs_replicate {r : SwitchRegs} {raw : Bool} (hcnt : r.cnt = 0#3) (hraw : raw ≠ r.deb) {k : Nat}
    (hk : k < 4) : (List.replicate (k + 1) raw).foldl sampleRegs r = ⟨raw, r.deb, BitVec.ofNat 3 (k + 1)⟩ := by
  induction k with
  | zero => simp [sampleRegs, hcnt, hraw]
  | succ k ih =>
    have hne : (BitVec.ofNat 3 (k + 1)).toNat ≠ 4 := by rw [BitVec.toNat_ofNat]; omega
    rw [List.replicate_succ', List.foldl_concat, ih (by omega), sampleRegs, if_neg hraw, if_neg hne,
      ← BitVec.ofNat_add]

/-- The fifth of five samples that differ from the debounced state commits them. -/
theorem foldl_sampleRegs_replicate_five {r : SwitchRegs} {raw : Bool} (hcnt : r.cnt = 0#3) (hraw : raw ≠ r.deb) :
    (List.replicate 5 raw).foldl sampleRegs r = ⟨raw, raw, 0#3⟩ := by
  rw [List.replicate_succ', List.foldl_concat, foldl_sampleRegs_replicate hcnt hraw (by decide), sampleRegs, if_neg hraw]
  exact if_pos rfl

/-- The count is at most 4 and counts the latest samples: that many at the end of `raws` differ from the debounced state. -/
def CountsLatest (raws : List Bool) (r : SwitchRegs) : Prop :=
  r.cnt.toNat ≤ 4 ∧ List.replicate r.cnt.toNat (!r.deb) <:+ raws

theorem countsLatest_of_cleared (raws : List Bool) {r : SwitchRegs} (h : r.cnt = 0#3) : CountsLatest raws r := by
  simp [CountsLatest, h]

theorem CountsLatest.sample {raws : List Bool} {r : SwitchRegs} (x : Bool) (h : CountsLatest raws r) :
    CountsLatest (raws ++ [x]) (sampleRegs r x) := by
  unfold sampleRegs
  split
  next => exact countsLatest_of_cleared _ rfl
  next hx =>
    split
    next => exact countsLatest_of_cleared _ rfl
    next hne =>
      obtain ⟨hle, before, hbefore⟩ := h
      have hsucc : (r.cnt + 1#3).toNat = r.cnt.toNat + 1 := by bv_omega
      refine ⟨by dsimp only; omega, before, ?_⟩
      dsimp only
      rw [hsucc, List.replicate_succ', ← List.append_assoc, hbefore, Bool.eq_not_of_ne hx]

theorem countsLatest_foldl (raws : List Bool) {r : SwitchRegs} (hcnt : r.cnt = 0#3) :
    CountsLatest raws (raws.foldl sampleRegs r) := by
  induction raws using List.reverseRecOn with
  | nil => exact countsLatest_of_cleared _ hcnt
  | append_singleton raws x ih =>
    rw [List.foldl_concat]
    exact ih.sample x

/-- A sample changes the debounced state only as the fifth counted sample that differs from it. -/
theorem sampleRegs_deb_ne {r : SwitchRegs} {x : Bool} (h : (sampleRegs r x).deb ≠ r.deb) : x ≠ r.deb ∧ r.cnt.toNat = 4 := by
  unfold sampleRegs at h
  split at h
  next => exact absurd rfl h
  next hx =>
    split at h
    next hcnt => exact ⟨hx, hcnt⟩
    next => exact absurd rfl h

/-- A sample that changes the debounced state is the last of five that all equal it. -/
theorem CountsLatest.commit {raws : List Bool} {r : SwitchRegs} {x : Bool} (h : CountsLatest raws r)
    (hdeb : (sampleRegs r x).deb ≠ r.deb) : x ≠ r.deb ∧ ∃ before, raws ++ [x] = before ++ List.replicate 5 x := by
  obtain ⟨hx, hcnt⟩ := sampleRegs_deb_ne hdeb
  obtain ⟨-, before, hbefore⟩ := h
  rw [hcnt, ← Bool.eq_not_of_ne hx] at hbefore
  exact ⟨hx, before, by rw [← hbefore, List.append_assoc, ← List.replicate_succ']⟩

/-- Settles O17: each part is read off the fold of the samples into the registers. -/
theorem transitionAfterExactlyFiveSamples : Obligations.TransitionAfterExactlyFiveSamples := by
  intro sw s
  refine ⟨fun hcnt raw rest k hraw hlevels hk1 hk5 => ?_, fun hcnt raws rest x hlevels => ?_, fun rest hlevels => ?_⟩
  · have hsplit : levelsOf sw s.inputs = List.replicate k raw ++ (List.replicate (5 - k) raw ++ rest) := by
      rw [hlevels, ← List.append_assoc, List.replicate_append_replicate, Nat.add_sub_cancel' hk5]
    obtain ⟨t, ht, hregs, hrest⟩ := execTimes_debounce hsplit
    rw [List.length_replicate] at ht
    refine ⟨t, ht, hrest, ?_⟩
    rw [hregs]
    split
    next hlt =>
      obtain ⟨j, rfl⟩ := Nat.exists_eq_add_of_le' hk1
      rw [foldl_sampleRegs_replicate hcnt hraw (by omega), Bool.eq_not_of_ne hraw, Bool.not_not]
    next hge =>
      obtain rfl : k = 5 := by omega
      exact foldl_sampleRegs_replicate_five hcnt hraw
  · obtain ⟨t, ht, hregs, hrest⟩ := execTimes_debounce hlevels
    refine ⟨t, debounce sw t, ht, rfl, fun hdeb => ?_⟩
    rw [(debounce_scripted hrest).1] at hdeb
    have hlatest : CountsLatest raws (switchRegs sw t) := hregs ▸ countsLatest_foldl raws hcnt
    exact hlatest.commit hdeb
  · refine ⟨debounce sw s, rfl, ?_⟩
    rw [(debounce_scripted hlevels).1, sampleRegs, if_pos rfl]
    exact ⟨rfl, rfl⟩

end Sys2Proof.Machine
end

section
/-! SUPPORT. The two attenuation curves (R210 to R215): DefaultWithMute by its monotonicity and its value at the ends of its
segments, TraditionalCurve by the direction of its table. -/

namespace Sys2Proof.Machine

/-! ### TraditionalCurve -/

/-- TRAD_TABLE is a running maximum, read forwards or backwards. -/
theorem tradTable_le (i : Nat) : Config.tradTable i ≤ 12 := by
  unfold Config.tradTable
  split <;> exact tradRising_le _

/-- TRAD_TABLE rises over 0..133 when `tradRises` says so (R215). -/
theorem tradTable_mono {i j : Nat} (hr : Config.tradRises = true) (hij : i ≤ j) : Config.tradTable i ≤ Config.tradTable j := by
  simp only [Config.tradTable, hr]
  exact tradRising_mono hij

/-- TRAD_TABLE falls otherwise (R215). -/
theorem tradTable_anti {i j : Nat} (hr : ¬ Config.tradRises = true) (hij : i ≤ j) :
    Config.tradTable j ≤ Config.tradTable i := by
  simp only [Config.tradTable, hr]
  exact tradRising_mono (Nat.sub_le_sub_left hij _)

theorem trad_eq (n : Nat) : trad n = Config.tradTable (133 - min n 133) := rfl

/-- The reversed reading is clamped at 0 (R212). -/
theorem trad_of_ge {n : Nat} (h : 133 ≤ n) : trad n = Config.tradTable 0 := by
  rw [trad_eq, Nat.min_eq_right h]

/-- Settles O23: the table's direction is `tradRises`, and either way its entries are those of one running maximum. -/
theorem traditionalCurveShape : Obligations.TraditionalCurveShape := by
  refine ⟨tradTable_le, fun _ => tradTable_le _, ?_, trad_of_ge le_rfl, rfl, fun _ => trad_of_ge⟩
  by_cases hr : Config.tradRises = true
  · exact .inl fun _ _ hij _ => tradTable_mono hr hij
  · exact .inr fun _ _ hij _ => tradTable_anti hr hij

/-! ### TARGET -/

/-- The clip's lower bound never acts (R213). -/
theorem linearPotVal_eq (n : Nat) : linearPotVal n = min (n * 255 / (255 - n)) 255 := by
  rw [linearPotVal, clip, Nat.max_eq_left (Nat.zero_le _)]

/-- R211 with the breakpoints' values. -/
theorem dwmOfLpv_eq (v : Nat) :
    dwmOfLpv v = if v < 6 then 0 else if v > 236 then 64 else if v ≤ 192 then (v - 6) * 14 / 192 else 14 + (v - 192) * 34 / 44 :=
  rfl

theorem target_defaultWithMute (raw : Byte) : target raw .defaultWithMute = if raw.toNat > 224 then 0 else dwm raw.toNat := rfl

theorem target_traditionalCurve (raw : Byte) : target raw .traditionalCurve = if raw.toNat > 224 then 0 else trad raw.toNat := rfl

/-- Settles O21. -/
theorem targetOfReading : Obligations.TargetOfReading := by
  intro raw n lpv
  constructor
  · rw [target_defaultWithMute, dwm, dwmOfLpv_eq, linearPotVal_eq]
  · rw [target_traditionalCurve, trad_eq]

/-! ### DefaultWithMute -/

/-- The quotient grows with its numerator and as its divisor shrinks, up to the last divisor that is not 0. -/
theorem linearPotVal_mono {m n : Nat} (hmn : m ≤ n) (hn : n < 255) : linearPotVal m ≤ linearPotVal n := by
  have hquot : m * 255 / (255 - m) ≤ n * 255 / (255 - n) :=
    Nat.div_le_div (Nat.mul_le_mul_right 255 hmn) (Nat.sub_le_sub_left hmn 255) (by omega)
  rw [linearPotVal_eq, linearPotVal_eq]
  exact min_le_min_right 255 hquot

/-- The segments of R211 each rise, and each ends no higher than the next begins: 13 and 14 at A, 48 and 64 at D. -/
theorem dwmOfLpv_mono {v w : Nat} (h : v ≤ w) : dwmOfLpv v ≤ dwmOfLpv w := by
  rw [dwmOfLpv_eq, dwmOfLpv_eq]
  split_ifs <;> omega

theorem dwm_mono {m n : Nat} (hmn : m ≤ n) (hn : n < 255) : dwm m ≤ dwm n :=
  dwmOfLpv_mono (linearPotVal_mono hmn hn)

/-- The last reading of the zero segment. -/
theorem dwm_of_le_18 {n : Nat} (h : n ≤ 18) : dwm n = 0 := by
  have hle : dwm n ≤ dwm 18 := dwm_mono h (by omega)
  have h18 : dwm 18 = 0 := rfl
  omega

theorem dwm_le_of_le_109 {n : Nat} (h : n ≤ 109) : dwm n ≤ 13 :=
  dwm_mono h (by omega)

theorem le_dwm_of_ge_111 {n : Nat} (h : 111 ≤ n) (hn : n ≤ 224) : 17 ≤ dwm n :=
  dwm_mono h (by omega)

theorem dwm_le_of_le_122 {n : Nat} (h : n ≤ 122) : dwm n ≤ 45 :=
  dwm_mono h (by omega)

/-- Mute from the first reading above breakpoint D on. -/
theorem dwm_of_ge_123 {n : Nat} (h : 123 ≤ n) (hn : n ≤ 224) : dwm n = 64 :=
  le_antisymm (dwm_le n) (dwm_mono h (by omega))

/-- 14 is the value at one reading only: its neighbours give 13 and 17. -/
theorem dwm_eq_14_iff {n : Nat} (hn : n ≤ 224) : dwm n = 14 ↔ n = 110 := by
  constructor
  · intro h14
    have hlow : ¬ n ≤ 109 := fun h => by have := dwm_le_of_le_109 h; omega
    have hhigh : ¬ 111 ≤ n := fun h => by have := le_dwm_of_ge_111 h hn; omega
    omega
  · rintro rfl
    rfl

theorem dwm_eq_64_iff {n : Nat} (hn : n ≤ 224) : dwm n = 64 ↔ 123 ≤ n := by
  constructor
  · intro h64
    have hlow : ¬ n ≤ 122 := fun h => by have := dwm_le_of_le_122 h; omega
    omega
  · exact fun h => dwm_of_ge_123 h hn

/-- linearPotVal jumps over breakpoint D, from 233 at 122 to 237 at 123. -/
theorem linearPotVal_ne_236 {n : Nat} (hn : n ≤ 224) : linearPotVal n ≠ 236 := by
  rcases Nat.lt_or_ge n 123 with h | h
  · have hle : linearPotVal n ≤ 233 := linearPotVal_mono (n := 122) (by omega) (by omega)
    omega
  · have hge : 237 ≤ linearPotVal n := linearPotVal_mono (m := 123) h (by omega)
    omega

/-- The values of DefaultWithMute (R214). -/
def curveValues : List Nat :=
  [0, 1, 2, 3, 4, 5, 6, 7, 8, 9, 10, 11, 12, 13, 14, 17, 19, 21, 24, 27, 29, 32, 34, 37, 40, 43, 45, 64]

/-- The first reading of each value. -/
def curveReadings : List Nat :=
  [0, 19, 30, 41, 50, 58, 66, 73, 80, 87, 93, 98, 103, 108, 110, 111, 112, 113, 114, 115, 116, 117, 118, 119, 120, 121, 122, 123]

theorem curveValues_eq : curveValues = curveReadings.map dwm := rfl

theorem curveReadings_le : ∀ n ∈ curveReadings, n ≤ 224 := by decide

/-- The segment from A to D, which skips values, has 13 readings. -/
theorem dwm_mem_of_steep {n : Nat} (hlo : 110 ≤ n) (hhi : n ≤ 122) : dwm n ∈ curveValues := by
  interval_cases n <;> decide

theorem dwm_mem_curveValues {n : Nat} (hn : n ≤ 224) : dwm n ∈ curveValues := by
  rcases Nat.lt_or_ge n 110 with hlow | hlow
  · have hle : dwm n ≤ 13 := dwm_le_of_le_109 (by omega)
    have hall : ∀ v ≤ 13, v ∈ curveValues := by decide
    exact hall _ hle
  · rcases Nat.lt_or_ge n 123 with hhigh | hhigh
    · exact dwm_mem_of_steep hlow (by omega)
    · rw [dwm_of_ge_123 hhigh hn]
      decide

theorem exists_reading_of_mem_curveValues {v : Nat} (hv : v ∈ curveValues) : ∃ n ≤ 224, dwm n = v := by
  rw [curveValues_eq] at hv
  obtain ⟨n, hn, rfl⟩ := List.mem_map.1 hv
  exact ⟨n, curveReadings_le n hn, rfl⟩

/-- Settles O22: from the monotonicity and the values at 18, 109 to 111, 122 and 123, where the segments meet. -/
theorem defaultCurveShape : Obligations.DefaultCurveShape :=
  ⟨fun _ h => dwm_mono (Nat.le_succ _) (by omega), fun _ => dwm_mem_curveValues, fun _ => exists_reading_of_mem_curveValues,
    fun _ => dwm_of_le_18, rfl, fun _ => dwm_eq_14_iff, rfl, fun _ => dwm_eq_64_iff, fun _ => linearPotVal_ne_236, rfl, rfl⟩

end Sys2Proof.Machine
end

section
/-! SUPPORT. The LED display (R240 to R252): which of its three sources a RENDER shows, one render of an active override, and the
override animation as a chain of phases, each shown for its duration. -/

namespace Sys2Proof.Machine

@[simp] theorem exec_ovrstart (n : BitVec 2) (s : State) : exec (.ovrstart n) s = .next (ovrStart n s) := rfl

/-- Settles O30. -/
theorem ovrstartResult : Obligations.OvrstartResult := fun n s _ => exec_ovrstart n s

/-! ### What RENDER shows -/

section
variable {s : State} {b : Byte}

theorem render_of_override (h : s.ovrState ≠ .idle) : render s = .next (overrideStep s) := by
  simp [render, overrideActive, h]

theorem render_of_idle (h : s.ovrState = .idle) (hb : s.batt = some b) : render s = .next (renderNormal b s) := by
  simp [render, overrideActive, h, hb]

theorem renderNormal_of_low (h : b.toNat < 84) : renderNormal b s = showPulse s := if_pos h

theorem renderNormal_of_ge (h : 84 ≤ b.toNat) : renderNormal b s = renderMode b s := if_neg (Nat.not_lt.2 h)

end

/-! ### The pulse -/

theorem showPulse_eq {s : State} {lvl : Byte} {dir : PulseDir}
    (h : pulseNext Config.pulseMax s.pulseLvl s.pulseDir = (lvl, dir)) :
    showPulse s = pwmWrite ⟨lvl, 0#8, 0#8⟩ { s with pulseLvl := lvl, pulseDir := dir } := by
  simp [showPulse, pulseStep, h]

/-- Settles O32: both directions step by 6, and reverse at the bound they would reach or pass. -/
theorem renderLowBatteryPulse : Obligations.RenderLowBatteryPulse := by
  intro s b hidle hb hlow l next
  have hnext : pulseNext Config.pulseMax s.pulseLvl s.pulseDir = (BitVec.ofNat 8 next.1, next.2) := by
    cases hdir : s.pulseDir with
    | rising =>
      by_cases htop : l + 6 ≥ Config.pulseMax <;> simp [pulseNext, next, hdir, htop, l]
    | falling =>
      by_cases hbottom : l ≤ 6 <;> simp [pulseNext, next, hdir, hbottom, l]
  rw [exec_render, render_of_idle hidle hb, renderNormal_of_low hlow, showPulse_eq hnext]
  rfl

/-! ### The active mode -/

/-- BatteryMonitor shows the colour of the battery's class (R242). -/
theorem renderMode_batteryMonitor {s : State} {b : Byte} (hmode : s.ledMode = .batteryMonitor) (hb : 84 ≤ b.toNat) :
    renderMode b s =
      pwmWrite (if b.toNat ≥ 99 then Config.battGreen else if b.toNat ≥ 92 then Config.battYellow else Config.battRed) s := by
  by_cases hgreen : 99 ≤ b.toNat
  · simp [renderMode, battClass, hmode, hgreen]
  · by_cases hyellow : 92 ≤ b.toNat
    · simp [renderMode, battClass, hmode, hgreen, hyellow]
    · simp [renderMode, battClass, hmode, hgreen, hyellow, hb]

/-- The LED after a render that shows a colour, or shows none and holds it. -/
def showColour (c : Option Rgb) (s : State) : State :=
  { s with pwm := c.getD s.pwm, trace := s.trace ++ (c.map Event.pwm).toList }

theorem showColour_some (c : Rgb) (s : State) : showColour (some c) s = pwmWrite c s := rfl

theorem showColour_none (s : State) : showColour none s = s := by simp [showColour]

/-- Settles O33, mode by mode. -/
theorem renderActiveMode : Obligations.RenderActiveMode := by
  intro s b hidle hb hge colour
  have hshow : renderMode b s = showColour colour s := by
    cases hmode : s.ledMode with
    | batteryMonitor => simp only [renderMode_batteryMonitor hmode hge, colour, hmode, showColour_some]
    | vuMeter => simp only [renderMode, vuDisplay, vuIndex, colour, hmode, showColour_some]
    | solidRed | solidGreen | solidBlue | solidWhite => simp only [renderMode, colour, hmode, showColour_some]
    | editSw1 | editSw2 => simp only [renderMode, colour, hmode, showColour_none]
  rw [exec_render, render_of_idle hidle hb, renderNormal_of_ge hge, hshow]
  rfl

/-! ### One render of an active override -/

/-- The phase that follows phase `o`, `i` being OVR_IDX in `o` and `n` being OVR_N (R251). -/
def nextPhase (o : OvrState) (i n : BitVec 2) : OvrState :=
  match o with
  | .idle => .idle
  | .initialPause => .flashOn
  | .flashOn => .flashOff
  | .flashOff => if i + 1#2 < n then .flashOn else .finalPause
  | .finalPause => .idle

/-- OVR_IDX once phase `o` is over: the end of FlashOff ends a flash (R251). -/
def flashesEnded (o : OvrState) (i : BitVec 2) : BitVec 2 := if o = .flashOff then i + 1#2 else i

theorem ovrAdvance_eq {s : State} (h : s.ovrState ≠ .idle) :
    ovrAdvance s =
      { s with
        ovrCnt := 0#4, ovrIdx := flashesEnded s.ovrState s.ovrIdx
        ovrState := nextPhase s.ovrState s.ovrIdx s.ovrN } := by
  cases ho : s.ovrState with
  | idle => exact absurd ho h
  | _ => simp [ovrAdvance, flashesEnded, nextPhase, ho]

/-- OVR_CNT wraps from 15 to 0, and every duration is in 1..10. -/
theorem ovrCnt_succ_eq_duration_iff {o : OvrState} (h : o ≠ .idle) (c : BitVec 4) :
    (c + 1#4).toNat = ovrDuration o ↔ c.toNat + 1 = ovrDuration o := by
  have hpos := ovrDuration_pos h
  have hle := ovrDuration_le o
  have hadd : (c + 1#4).toNat = (c.toNat + 1) % 16 := BitVec.toNat_add c 1#4
  omega

/-- A render before the phase's last counts (R251). -/
theorem overrideStep_of_ne {s : State} (h : s.ovrState ≠ .idle) (hcnt : s.ovrCnt.toNat + 1 ≠ ovrDuration s.ovrState) :
    overrideStep s = { pwmWrite (ovrColor s.ovrState) s with ovrCnt := s.ovrCnt + 1#4 } :=
  if_neg fun hlast => hcnt ((ovrCnt_succ_eq_duration_iff h _).1 hlast)

/-- The phase's last render starts the phase that follows (R251). -/
theorem overrideStep_of_eq {s : State} (h : s.ovrState ≠ .idle) (hcnt : s.ovrCnt.toNat + 1 = ovrDuration s.ovrState) :
    overrideStep s =
      { pwmWrite (ovrColor s.ovrState) s with
        ovrCnt := 0#4, ovrIdx := flashesEnded s.ovrState s.ovrIdx
        ovrState := nextPhase s.ovrState s.ovrIdx s.ovrN } :=
  (if_pos ((ovrCnt_succ_eq_duration_iff h _).2 hcnt)).trans (ovrAdvance_eq h)

theorem overrideStep_trace {s : State} (h : s.ovrState ≠ .idle) :
    (overrideStep s).trace = s.trace ++ [.pwm (ovrColor s.ovrState)] := by
  by_cases hlast : s.ovrCnt.toNat + 1 = ovrDuration s.ovrState
  · rw [overrideStep_of_eq h hlast]
    rfl
  · rw [overrideStep_of_ne h hlast]
    rfl

theorem ovrDuration_eq {o : OvrState} (h : o ≠ .idle) :
    ovrDuration o = if o = .flashOn ∨ o = .flashOff then 4 else 10 := by
  cases o with
  | idle => exact absurd rfl h
  | _ => rfl

/-- Settles O31: a render ends the phase or counts. -/
theorem renderOverrideStep : Obligations.RenderOverrideStep := by
  intro s hact colour duration done following
  have hduration : duration = ovrDuration s.ovrState := (ovrDuration_eq hact).symm
  have hfollowing : following = nextPhase s.ovrState s.ovrIdx s.ovrN := by
    cases ho : s.ovrState <;> simp [following, nextPhase, ho]
  rw [exec_render, render_of_override hact, hfollowing]
  by_cases hlast : s.ovrCnt.toNat + 1 = ovrDuration s.ovrState
  · have hdone : done = true := by simp [done, hduration, hlast]
    simp only [overrideStep_of_eq hact hlast, hdone, true_and]
    rfl
  · have hdone : done = false := by simp [done, hduration, hlast]
    simp only [overrideStep_of_ne hact hlast, hdone]
    rfl

/-! ### The animation -/

/-- Renders that each find an override active take `s` to `t` and show `cs`. -/
inductive Shows : List Rgb → State → State → Prop
  | nil (s : State) : Shows [] s s
  | cons {cs : List Rgb} {s t : State} (hact : s.ovrState ≠ .idle) (hrest : Shows cs (overrideStep s) t) :
      Shows (ovrColor s.ovrState :: cs) s t

namespace Shows

variable {cs ds : List Rgb} {s t u : State}

theorem append (h : Shows cs s t) (k : Shows ds t u) : Shows (cs ++ ds) s u := by
  induction h with
  | nil => exact k
  | cons hact _ ih => exact .cons hact (ih k)

theorem execTimes_eq (h : Shows cs s t) : execTimes .render cs.length s = .next t := by
  induction h with
  | nil => rfl
  | cons hact _ ih =>
    rw [List.length_cons, execTimes, exec_render, render_of_override hact, andThen_next, ih]

/-- Before its last render the animation is not over. -/
theorem active (h : Shows cs s t) {k : Nat} (hk : k < cs.length) :
    ∃ v, execTimes .render k s = .next v ∧ v.ovrState ≠ .idle := by
  induction h generalizing k with
  | nil => exact absurd hk (Nat.not_lt_zero k)
  | @cons _ s _ hact _ ih =>
    cases k with
    | zero => exact ⟨s, rfl, hact⟩
    | succ k =>
      obtain ⟨v, hv, hvact⟩ := ih (Nat.lt_of_succ_lt_succ hk)
      exact ⟨v, by rw [execTimes, exec_render, render_of_override hact, andThen_next, hv], hvact⟩

theorem trace_eq (h : Shows cs s t) : t.trace = s.trace ++ cs.map .pwm := by
  induction h with
  | nil s => exact (List.append_nil _).symm
  | cons hact _ ih => rw [ih, overrideStep_trace hact, List.append_assoc, List.map_cons, List.singleton_append]

end Shows

theorem coloursOf_map_pwm (cs : List Rgb) : coloursOf (cs.map .pwm) = cs := by
  simp [coloursOf, List.filterMap_map]

/-- Phase `o` of an animation of `n` flashes begins, `i` flashes having ended. -/
structure PhaseBegins (o : OvrState) (i n : BitVec 2) (s : State) : Prop where
  state : s.ovrState = o
  count : s.ovrCnt = 0#4
  index : s.ovrIdx = i
  flashes : s.ovrN = n

/-- The last `m + 1` renders of a phase show its colour and lead to the phase that follows. -/
theorem shows_rest_of_phase (m : Nat) {s : State} (hact : s.ovrState ≠ .idle)
    (hm : s.ovrCnt.toNat + (m + 1) = ovrDuration s.ovrState) :
    ∃ t, Shows (List.replicate (m + 1) (ovrColor s.ovrState)) s t ∧
      PhaseBegins (nextPhase s.ovrState s.ovrIdx s.ovrN) (flashesEnded s.ovrState s.ovrIdx) s.ovrN t := by
  induction m generalizing s with
  | zero =>
    refine ⟨overrideStep s, .cons hact (.nil _), ?_⟩
    rw [overrideStep_of_eq hact hm]
    exact ⟨rfl, rfl, rfl, rfl⟩
  | succ m ih =>
    have hle := ovrDuration_le s.ovrState
    have hcount : (s.ovrCnt + 1#4).toNat = s.ovrCnt.toNat + 1 := BitVec.toNat_add_of_lt (by simp; omega)
    have hstep := overrideStep_of_ne hact (by omega)
    obtain ⟨t, hshows, hbegins⟩ := ih (s := overrideStep s) (by rw [hstep]; exact hact)
      (by rw [hstep]; simp only [pwmWrite_ovrState, hcount]; omega)
    rw [hstep] at hbegins
    refine ⟨t, .cons hact ?_, hbegins⟩
    rw [hstep] at hshows ⊢
    exact hshows

/-- A phase is shown for its duration (R251). -/
theorem PhaseBegins.shows {o : OvrState} {i n : BitVec 2} {s : State} (h : PhaseBegins o i n s) (ho : o ≠ .idle) :
    ∃ t, Shows (List.replicate (ovrDuration o) (ovrColor o)) s t ∧ PhaseBegins (nextPhase o i n) (flashesEnded o i) n t := by
  obtain ⟨rfl, hcount, rfl, rfl⟩ := h
  obtain ⟨m, hm⟩ := Nat.exists_eq_succ_of_ne_zero (ovrDuration_pos ho).ne'
  rw [hm]
  exact shows_rest_of_phase m ho (by simp [hcount, hm])

/-- What one flash shows (R252). -/
def flashColours : List Rgb := List.replicate 4 Config.flash ++ List.replicate 4 Config.off

/-- What an animation of `n` flashes shows (R252). -/
def animationColours (n : Nat) : List Rgb :=
  List.replicate 10 Config.off ++ (List.replicate n flashColours).flatten ++ List.replicate 10 Config.off

theorem length_animationColours (n : Nat) : (animationColours n).length = 20 + 8 * n := by
  simp [animationColours, flashColours]
  omega

theorem PhaseBegins.shows_flash {i n : BitVec 2} {s : State} (h : PhaseBegins .flashOn i n s) :
    ∃ t, Shows flashColours s t ∧ PhaseBegins (nextPhase .flashOff i n) (i + 1#2) n t := by
  obtain ⟨u, hon, hu⟩ := h.shows (by decide)
  obtain ⟨t, hoff, ht⟩ := PhaseBegins.shows (o := .flashOff) hu (by decide)
  exact ⟨t, hon.append hoff, ht⟩

/-- The flashes still to come, `m + 1` of them, lead to the final pause. -/
theorem PhaseBegins.shows_flashes (m : Nat) {i n : BitVec 2} {s : State} (h : PhaseBegins .flashOn i n s)
    (hm : i.toNat + (m + 1) = n.toNat) :
    ∃ t, Shows (List.replicate (m + 1) flashColours).flatten s t ∧ PhaseBegins .finalPause n n t := by
  induction m generalizing i s with
  | zero =>
    obtain ⟨t, hflash, ht⟩ := h.shows_flash
    have hlast : i + 1#2 = n := by bv_omega
    exact ⟨t, by simpa using hflash, by simpa [nextPhase, hlast] using ht⟩
  | succ m ih =>
    obtain ⟨u, hflash, hu⟩ := h.shows_flash
    have hmore : i + 1#2 < n := by bv_omega
    obtain ⟨t, hflashes, ht⟩ := ih (by simpa [nextPhase, hmore] using hu) (by bv_omega)
    exact ⟨t, hflash.append hflashes, ht⟩

theorem ovrStart_phaseBegins (n : BitVec 2) (s : State) : PhaseBegins .initialPause 0#2 n (ovrStart n s) :=
  ⟨rfl, rfl, rfl, rfl⟩

/-- From OVRSTART to Idle: the initial pause, the flashes, the final pause (R250 to R252). -/
theorem ovrStart_shows {n : BitVec 2} (hn : n = 1#2 ∨ n = 2#2) (s : State) :
    ∃ t, Shows (animationColours n.toNat) (ovrStart n s) t ∧ t.ovrState = .idle := by
  obtain ⟨m, hm⟩ : ∃ m, n.toNat = m + 1 := Nat.exists_eq_succ_of_ne_zero (by rcases hn with rfl | rfl <;> decide)
  obtain ⟨u, hpause, hu⟩ := (ovrStart_phaseBegins n s).shows (by decide)
  obtain ⟨v, hflashes, hv⟩ := PhaseBegins.shows_flashes m hu (by simp [flashesEnded, hm])
  obtain ⟨t, hfinal, ht⟩ := hv.shows (by decide)
  rw [hm]
  exact ⟨t, (hpause.append hflashes).append hfinal, ht.state⟩

/-- Settles O35: the renders of `ovrStart_shows`, counted by the colours they show. -/
theorem animationLength : Obligations.AnimationLength := by
  intro s n hn
  obtain ⟨t, hshows, hidle⟩ := ovrStart_shows hn s
  have hlength := length_animationColours n.toNat
  refine ⟨ovrStart n s, t, (animationColours n.toNat).map .pwm, exec_ovrstart n s, ?_, hidle, hshows.trace_eq,
    coloursOf_map_pwm _, fun k hk => hshows.active (by rwa [hlength])⟩
  rw [← hlength, hshows.execTimes_eq]

end Sys2Proof.Machine
end

section
/-! SUPPORT. The VU meter (R270 to R276): VUSAMP on 20 conversions that complete, and the three zones of VU_COLOR, in which every
channel fits its byte. -/

namespace Sys2Proof.Machine

/-! ### VUSAMP -/

/-- Of the two differences from the mid-scale one is 0, so their sum is the larger (R270). -/
theorem deviation_eq_max (b : Byte) : deviation b = max (b.toNat - 128) (128 - b.toNat) := by
  simp only [deviation, Config.vuMid]
  omega

theorem peakOf_eq_foldl_max (bs : List Byte) :
    peakOf bs = (bs.map fun b => max (b.toNat - 128) (128 - b.toNat)).foldl max 0 := by
  simp only [peakOf, deviation_eq_max, List.foldl_map]

/-- VU_WP advances modulo 4 (R270). -/
theorem vuWp_succ_eq (i : BitVec 2) : i + 1#2 = BitVec.ofNat 2 ((i.toNat + 1) % 4) := by
  bv_omega

/-- R271 with the decay written out. -/
theorem smooth_eq (v sig : Nat) :
    smooth v sig = if sig * 256 ≥ v then sig * 256 else if v * 15 / 16 < 256 then 0 else v * 15 / 16 := rfl

/-- VUSAMP takes in its 20 readings once they are all there (R270). -/
theorem vuSample_of_ready {s : State} {bs : List Byte} {p : Inputs} (h : readingsReady .audio 20 s.inputs = some (bs, p)) :
    vuSample s = .next (vuTake bs (emit (bs.map (.adc .audio)) (withInputs p s))) :=
  vuSample_eq_next.2 ⟨bs, _, adcReads_ready h, rfl⟩

/-- Settles O26: the readings' peak, the pointer and the smoothed value are those of `vuTake`, and drawing the readings writes only the
inputs and the trace. -/
theorem vusampResult : Obligations.VusampResult := by
  intro s bs p hready peak win sig v
  have hpeak : peak = peakOf bs := (peakOf_eq_foldl_max bs).symm
  have hwin : win = setVuWin s.vuWp (BitVec.ofNat 8 (peakOf bs)) s.vuWin := by simp only [win, hpeak, setVuWin]
  have hsig : sig = windowMax (setVuWin s.vuWp (BitVec.ofNat 8 (peakOf bs)) s.vuWin) := by rw [← hwin]; rfl
  rw [exec_vusamp, vuSample_of_ready hready, ← vuWp_succ_eq, ← smooth_eq, hsig, hwin]
  rfl

/-! ### VU_COLOR -/

section
variable {b : Byte}

/-- The first zone: green ramps up to 33 (R276). -/
theorem vuColor_of_le_191 (h : b.toNat ≤ 191) : vuColor b = ⟨0#8, BitVec.ofNat 8 (b.toNat * 33 / 191), 0#8⟩ := if_pos h

/-- The second zone: red ramps to 50 while green goes from 33 to 40 (R276). -/
theorem vuColor_of_mid (hlo : ¬ b.toNat ≤ 191) (hhi : b.toNat ≤ 223) :
    vuColor b = ⟨BitVec.ofNat 8 ((b.toNat - 192) * 50 / 31), BitVec.ofNat 8 (33 + (b.toNat - 192) * 7 / 31), 0#8⟩ :=
  (if_neg hlo).trans (if_pos hhi)

/-- The third zone: red ramps from 100 to 255 (R276). -/
theorem vuColor_of_gt_223 (h : ¬ b.toNat ≤ 223) : vuColor b = ⟨BitVec.ofNat 8 (100 + (b.toNat - 224) * 155 / 31), 0#8, 0#8⟩ :=
  (if_neg fun hlow => h (by omega)).trans (if_neg h)

end

/-- The channels as numbers: in each zone the ramps stay within a byte, so nothing is cut (R276). -/
theorem vuColor_channels (b : Byte) :
    ((vuColor b).r.toNat, (vuColor b).g.toNat, (vuColor b).b.toNat) =
      if b.toNat ≤ 191 then (0, b.toNat * 33 / 191, 0)
      else if b.toNat ≤ 223 then ((b.toNat - 192) * 50 / 31, 33 + (b.toNat - 192) * 7 / 31, 0)
      else (100 + (b.toNat - 224) * 155 / 31, 0, 0) := by
  have hb := b.isLt
  split_ifs with hlow hmid
  · have hgreen : b.toNat * 33 / 191 ≤ 255 := by omega
    rw [vuColor_of_le_191 hlow, ofNat8_toNat hgreen]
    rfl
  · have hred : (b.toNat - 192) * 50 / 31 ≤ 255 := by omega
    have hgreen : 33 + (b.toNat - 192) * 7 / 31 ≤ 255 := by omega
    rw [vuColor_of_mid hlow hmid, ofNat8_toNat hred, ofNat8_toNat hgreen]
    rfl
  · have hred : 100 + (b.toNat - 224) * 155 / 31 ≤ 255 := by omega
    rw [vuColor_of_gt_223 hmid, ofNat8_toNat hred]
    rfl

/-- Settles O29: the index is its definition with the clamp's value, and the end values are the formula's at the zones' ends. -/
theorem vuIndexAndColour : Obligations.VuIndexAndColour :=
  ⟨fun _ => rfl, vuColor_channels, rfl, rfl, rfl, rfl, rfl, rfl⟩

end Sys2Proof.Machine
end

section
/-! SUPPORT. The battery: what BATSAMP stores (R290) and the four classes (R291). -/

namespace Sys2Proof.Machine

/-! ### BATSAMP -/

/-- BATSAMP stores the reading its conversion completes with (R290). -/
theorem batSample_of_ready {s : State} {b : Byte} {p : Inputs} (h : nextReading .batt s.inputs = (some b, p)) :
    batSample s = .next (setBatt b (emit [.adc .batt b] (withInputs p s))) :=
  batSample_eq_next.2 ⟨b, _, adcRead_ready h, rfl⟩

/-- Settles O36: the conversion draws one reading and logs its event, and `setBatt` stores that reading. -/
theorem batsampResult : Obligations.BatsampResult := by
  intro s b p hready
  rw [exec_batsamp, batSample_of_ready hready]
  rfl

/-! ### CLASS -/

section
variable {b : Byte}

/-- CLASS with its three thresholds as numbers (R291). -/
theorem battClass_eq :
    battClass b = if 99 ≤ b.toNat then .green else if 92 ≤ b.toNat then .yellow else if 84 ≤ b.toNat then .red else .low := rfl

theorem battClass_of_ge_99 (h : 99 ≤ b.toNat) : battClass b = .green := by
  rw [battClass_eq, if_pos h]

theorem battClass_of_92_to_98 (hlo : 92 ≤ b.toNat) (hhi : b.toNat ≤ 98) : battClass b = .yellow := by
  rw [battClass_eq, if_neg (by omega), if_pos hlo]

theorem battClass_of_84_to_91 (hlo : 84 ≤ b.toNat) (hhi : b.toNat ≤ 91) : battClass b = .red := by
  rw [battClass_eq, if_neg (by omega), if_neg (by omega), if_pos hlo]

theorem battClass_of_le_83 (h : b.toNat ≤ 83) : battClass b = .low := by
  rw [battClass_eq, if_neg (by omega), if_neg (by omega), if_neg (by omega)]

end

/-- Settles O37: every byte lies in one of the four ranges, its class is that range's, and the ranges are disjoint. -/
theorem batteryClassRanges : Obligations.BatteryClassRanges := by
  intro b
  have hranges : 99 ≤ b.toNat ∨ (92 ≤ b.toNat ∧ b.toNat ≤ 98) ∨ (84 ≤ b.toNat ∧ b.toNat ≤ 91) ∨ b.toNat ≤ 83 := by omega
  obtain hgreen | ⟨hlo, hhi⟩ | ⟨hlo, hhi⟩ | hlow := hranges
  · simp only [battClass_of_ge_99 hgreen, reduceCtorEq, true_iff, false_iff]
    omega
  · simp only [battClass_of_92_to_98 hlo hhi, reduceCtorEq, true_iff, false_iff]
    omega
  · simp only [battClass_of_84_to_91 hlo hhi, reduceCtorEq, true_iff, false_iff]
    omega
  · simp only [battClass_of_le_83 hlow, reduceCtorEq, true_iff, false_iff]
    omega

end Sys2Proof.Machine
end

section
/-! SUPPORT. The preference log: PREFINIT (R301) and PREFREAD (R302). -/

namespace Sys2Proof.Machine

@[simp] theorem exec_prefinit (s : State) : exec .prefinit s = .next (prefInitialise s).2 := rfl
@[simp] theorem exec_prefread (s : State) : exec .prefread s = .next (prefRead s).2 := rfl

section
variable {s : State} {n a : Nat} {b : Byte}

/-! ### One read of the scan -/

/-- The scan that has no slot left finds the default record (R302). -/
@[simp] theorem prefScan_zero (s : State) : prefScan 0 s = (some 0x00#8, prefFound 0#10 0x00#8 s) := rfl

/-- A failed read stops the scan. -/
theorem prefScan_succ_fail (hfail : (nextOk s.inputs).1 = false) :
    prefScan (n + 1) s = (none, raiseNv (.nvReadFail (BitVec.ofNat 9 n))
      (emit [.nvr (BitVec.ofNat 9 n) none] (withInputs (nextOk s.inputs).2 s))) := by
  rw [prefScan, nvRead_fail hfail]

/-- A record stops the scan, and the cursor is one past its slot. -/
theorem prefScan_succ_record (hn : n < 512) (hok : (nextOk s.inputs).1 = true) (hb : Memory.get s.sector n = b)
    (hrec : isRecord b = true) :
    prefScan (n + 1) s = (some b, prefFound (BitVec.ofNat 10 (n + 1)) b
      (emit [.nvr (BitVec.ofNat 9 n) (some b)] (withInputs (nextOk s.inputs).2 s))) := by
  have haddr : (BitVec.ofNat 9 n).toNat = n := by rw [BitVec.toNat_ofNat]; omega
  rw [prefScan, nvRead_ok hok, haddr, hb]
  exact if_pos hrec

/-! ### The state a run of successful reads leaves -/

/-- The state after successful reads of the slots from 511 down to `a` (R302). -/
def scannedDownTo (a : Nat) (s : State) : State :=
  { s with inputs := afterOk (512 - a) s.inputs, trace := s.trace ++ scanEvents s.sector a }

@[simp] theorem scannedDownTo_inputs : (scannedDownTo a s).inputs = afterOk (512 - a) s.inputs := rfl

theorem scanEvents_eq_append (m : Memory) (ha : a < 512) :
    scanEvents m a = scanEvents m (a + 1) ++ [.nvr (BitVec.ofNat 9 a) (some (Memory.get m a))] := by
  have hcount : 512 - a = (512 - (a + 1)) + 1 := by omega
  have hlast : 511 - (512 - (a + 1)) = a := by omega
  rw [scanEvents, hcount, List.range_succ, List.map_append, List.map_singleton, hlast, scanEvents]

/-- One more successful read. -/
theorem read_scannedDownTo_succ (ha : a < 512) (hb : Memory.get s.sector a = b) :
    emit [.nvr (BitVec.ofNat 9 a) (some b)]
      (withInputs (nextOk (scannedDownTo (a + 1) s).inputs).2 (scannedDownTo (a + 1) s)) = scannedDownTo a s := by
  have hcount : 512 - a = (512 - (a + 1)) + 1 := by omega
  simp [emit, withInputs, scannedDownTo, scanEvents_eq_append s.sector ha, hcount, afterOk_succ, hb]

/-- PREFREAD goes on below the slots it read without finding a record. -/
theorem prefRead_skip (ha : a ≤ 512) (hok : okReady (512 - a) s.inputs = true)
    (hnone : ∀ c, a ≤ c → c < 512 → isRecord (Memory.get s.sector c) = false) :
    prefRead s = prefScan a (scannedDownTo a s) := by
  have hstart : 512 - (512 - a) = a := by omega
  have hskip := prefScan_skip (512 - a) 512 s (Nat.sub_le _ _) le_rfl hok
    (fun c hlow hhigh => hnone c (by omega) hhigh)
  rw [hstart] at hskip
  exact hskip

/-! ### The three results of PREFREAD -/

/-- The scan ends at the newest record. -/
theorem prefRead_of_newest (hnew : NewestRecord s.sector a b) (hok : okReady (512 - a) s.inputs = true) :
    prefRead s = (some b, prefFound (BitVec.ofNat 10 (a + 1)) b (scannedDownTo a s)) := by
  obtain ⟨ha, hb, hrec, habove⟩ := hnew
  have hcount : 512 - a = (512 - (a + 1)) + 1 := by omega
  rw [hcount, okReady_succ, Bool.and_eq_true] at hok
  obtain ⟨hskipped, hread⟩ := hok
  rw [prefRead_skip (a := a + 1) ha hskipped habove,
    prefScan_succ_record (s := scannedDownTo (a + 1) s) ha hread hb hrec, read_scannedDownTo_succ ha hb]

/-- The scan of a sector without a record reads every slot. -/
theorem prefRead_of_noRecord (hnone : NoRecord s.sector) (hok : okReady 512 s.inputs = true) :
    prefRead s = (some 0x00#8, prefFound 0#10 0x00#8 (scannedDownTo 0 s)) := by
  rw [prefRead_skip (Nat.zero_le _) hok fun c _ hc => hnone c hc, prefScan_zero]

/-- The scan ends at the first read that fails, here that of slot `a`. -/
theorem prefRead_of_fail (ha : a < 512) (hnone : ∀ c, a < c → c < 512 → isRecord (Memory.get s.sector c) = false)
    (hok : okReady (511 - a) s.inputs = true) (hfail : (nextOk (afterOk (511 - a) s.inputs)).1 = false) :
    prefRead s = (none, raiseNv (.nvReadFail (BitVec.ofNat 9 a)) (emit [.nvr (BitVec.ofNat 9 a) none]
      (withInputs (nextOk (afterOk (511 - a) s.inputs)).2 (scannedDownTo (a + 1) s)))) := by
  have hcount : 511 - a = 512 - (a + 1) := by omega
  rw [hcount] at hok hfail ⊢
  rw [prefRead_skip (a := a + 1) ha hok hnone, prefScan_succ_fail hfail, scannedDownTo_inputs]

/-! ### The two results of PREFINIT -/

theorem prefInitialise_of_ok (hok : (nextOk s.inputs).1 = true) :
    prefInitialise s = (true, prefFound 1#10 0x00#8 (emit [.nvw 0#9 0x00#8 true]
      (withSector (Memory.set s.sector 0 0x00#8) (withInputs (nextOk s.inputs).2 s)))) := by
  rw [prefInitialise, nvWrite_ok hok]
  rfl

theorem prefInitialise_of_fail (hfail : (nextOk s.inputs).1 = false) :
    prefInitialise s = (false, raiseNv (.nvWriteFail 0#9) (emit [.nvw 0#9 0x00#8 false]
      (withSector (Memory.set s.sector 0 (nextLeft (nextOk s.inputs).2).1)
        (withInputs (nextLeft (nextOk s.inputs).2).2 s)))) := by
  rw [prefInitialise, nvWrite_fail hfail]
  rfl

end

/-- Settles O40: the scan skips the slots above the one it stops at, and that slot's read, or the end of the sector, decides the result. -/
theorem prefreadResult : Obligations.PrefreadResult := by
  intro s a b
  refine ⟨fun hnew hok => ?_, fun hnone hok => ?_, fun ha hnone hok hfail => ?_⟩
  · rw [exec_prefread, prefRead_of_newest hnew hok]
    exact ⟨rfl, rfl⟩
  · rw [exec_prefread, prefRead_of_noRecord hnone hok]
    simp only [prefFound, scannedDownTo, Nat.sub_zero, and_self]
  · rw [exec_prefread, prefRead_of_fail ha hnone hok hfail]
    refine ⟨rfl, congrArg Host.Outcome.next ?_⟩
    simp [raiseNv, emit, withInputs, scannedDownTo]

/-- Settles O39: either way the write of slot 0 is one `Memory.set`, of the default record or of the byte a failed write leaves. -/
theorem prefinitResult : Obligations.PrefinitResult := by
  intro s hwf
  cases hok : (nextOk s.inputs).1 with
  | true =>
    refine ⟨Memory.set s.sector 0 0x00#8, Memory.wf_set _ hwf (by decide),
      fun a ha => Memory.get_set_other _ hwf ha, fun _ => ?_, nofun⟩
    rw [exec_prefinit, prefInitialise_of_ok hok]
    exact ⟨Memory.get_set_same _ hwf, rfl, rfl⟩
  | false =>
    refine ⟨Memory.set s.sector 0 (nextLeft (nextOk s.inputs).2).1, Memory.wf_set _ hwf (by decide),
      fun a ha => Memory.get_set_other _ hwf ha, nofun, fun _ => ?_⟩
    rw [exec_prefinit, prefInitialise_of_fail hok]
    refine ⟨rfl, congrArg Host.Outcome.next ?_⟩
    simp [raiseNv, emit, withSector, withInputs, afterOk, afterLeft]

end Sys2Proof.Machine
end

section
/-! SUPPORT. Encoding and decoding are inverse (R120, R121, R125, R132): the operand fields of a word are read back from it, and a word
the decoder accepts has no 1 in a bit its instruction does not determine. -/

namespace Sys2Proof

/-! ### The operands of one MOD bit, and back -/

theorem switchBit_switchOf {m : BitVec 4} (h : m &&& ~~~0b0001#4 = 0#4) : switchBit (switchOf (m.getLsbD 0)) = m := by
  revert m
  decide

theorem edgeBit_or_switchBit {m : BitVec 4} (h : m &&& ~~~0b0011#4 = 0#4) :
    edgeBit (edgeOf (m.getLsbD 1)) ||| switchBit (switchOf (m.getLsbD 0)) = m := by
  revert m
  decide

theorem forceBit_getLsbD {m : BitVec 4} (h : m &&& ~~~0b0001#4 = 0#4) : (if m.getLsbD 0 then 1#4 else 0#4) = m := by
  revert m
  decide

theorem countBit_flashCountOf {m : BitVec 4} (h : m &&& ~~~0b0001#4 = 0#4) :
    (flashCountOf (m.getLsbD 0) - 1#2).setWidth 4 = m := by
  revert m
  decide

theorem mod_eq_zero {m : BitVec 4} (h : m &&& ~~~0b0000#4 = 0#4) : m = 0#4 := by
  revert m
  decide

/-! ### The two directions -/

/-- The word of an operation with DATA decodes to that operation with the same DATA (R121). -/
theorem decode_stepset_word (level : Byte) : decode (encode (.stepset level)) = .ok (.stepset level) := by
  simp [encode, decode, accept_eq_ok]

theorem decode_prefwrite_word (record : Byte) : decode (encode (.prefwrite record)) = .ok (.prefwrite record) := by
  simp [encode, decode, accept_eq_ok]

/-- Settles O1: the operands of MOD have finitely many values; those of DATA are read back by the laws of the fields. -/
theorem decodeOfEncode : Obligations.DecodeOfEncode := by
  intro i hwf
  cases i with
  | nop | tick | vusamp | render | batsamp | prefinit | prefread => rfl
  | debounce sw => cases sw <;> rfl
  | swevt sw e => cases sw <;> cases e <;> rfl
  | rvcupd force => cases force <;> rfl
  | stepset level => exact decode_stepset_word level
  | prefwrite record => exact decode_prefwrite_word record
  | ovrstart n =>
    have hn : n = 1#2 ∨ n = 2#2 := by simpa [Instr.wellFormed] using hwf
    rcases hn with rfl | rfl <;> rfl

theorem accept_commandWord_eq_ok {used op m : BitVec 4} {takes : Bool} {d : Byte} {i j : Instr} :
    accept used takes (commandWord op m d) i = .ok j ↔ m &&& ~~~used = 0#4 ∧ (takes = true ∨ d = 0#8) ∧ i = j := by
  rw [accept_eq_ok, modField_commandWord, dataField_commandWord]

/-- An accepted word, put together again from its fields, is the word of the instruction it decodes to. -/
theorem encode_of_decode_fields {op m : BitVec 4} {d : Byte} {i : Instr} (hd : decode (commandWord op m d) = .ok i) :
    encode i = commandWord op m d := by
  unfold decode at hd
  rw [opField_commandWord, modField_commandWord, dataField_commandWord] at hd
  match op with
  | 0#4 | 1#4 | 6#4 | 7#4 | 8#4 | 10#4 | 11#4 =>
    obtain ⟨hmod, hdata, rfl⟩ := accept_commandWord_eq_ok.1 hd
    rw [mod_eq_zero hmod, hdata.resolve_left nofun, encode]
  | 2#4 =>
    obtain ⟨hmod, hdata, rfl⟩ := accept_commandWord_eq_ok.1 hd
    rw [hdata.resolve_left nofun, encode, switchBit_switchOf hmod]
  | 3#4 =>
    obtain ⟨hmod, hdata, rfl⟩ := accept_commandWord_eq_ok.1 hd
    rw [hdata.resolve_left nofun, encode, edgeBit_or_switchBit hmod]
  | 4#4 =>
    obtain ⟨hmod, hdata, rfl⟩ := accept_commandWord_eq_ok.1 hd
    rw [hdata.resolve_left nofun, encode, forceBit_getLsbD hmod]
  | 9#4 =>
    obtain ⟨hmod, hdata, rfl⟩ := accept_commandWord_eq_ok.1 hd
    rw [hdata.resolve_left nofun, encode, countBit_flashCountOf hmod]
  | 5#4 | 12#4 =>
    obtain ⟨hmod, -, rfl⟩ := accept_commandWord_eq_ok.1 hd
    rw [mod_eq_zero hmod, encode]
  | 13#4 | 14#4 | 15#4 => cases hd

/-- Settles O2. -/
theorem acceptedWordIsEncoding : Obligations.AcceptedWordIsEncoding := by
  intro w i hd
  obtain ⟨op, m, d, rfl⟩ := exists_commandWord w
  exact ⟨Machine.wellFormed_of_decode hd, encode_of_decode_fields hd⟩

/-- Settles O5: each of the words is an encoding. -/
theorem writtenWordsDecode : Obligations.WrittenWordsDecode := ⟨rfl, rfl, rfl, rfl, rfl, rfl, rfl, rfl⟩

end Sys2Proof
end

section
/-! SUPPORT. What a step takes (R340, R341, R360, R361): a word once no reset sequence is pending, the TICK word for a tick or for no
request, a register reset for `rst`, and the reset sequence before any of the others while it is pending. -/

namespace Sys2Proof.Machine

theorem runCommand_of_decode {w : Word} {i : Instr} (hd : decode w = .ok i) (s : State) : runCommand w s = exec i s := by
  rw [runCommand, hd]

/-- Settles O6. -/
theorem stepRunsDecodedCommand : Obligations.StepRunsDecodedCommand := by
  intro s w rest i hreq hd _ hpend
  rw [step_eq_runCommand hreq hpend, runCommand_of_decode hd]
  rfl

theorem decode_tickWord : decode tickWord = .ok .tick := rfl

/-- A step that takes a tick runs the TICK word (E1). -/
theorem step_of_tick {s : State} {rest : List Request} (hreq : s.requests = .tick :: rest) (hpend : s.resetPending = false) :
    step s = exec .tick (beginOp rest s) := by
  simp [step, takeRequest, takeWord, hreq, hpend, runCommand_of_decode decode_tickWord]

theorem step_of_no_request {s : State} (hreq : s.requests = []) (hpend : s.resetPending = false) :
    step s = exec .tick (beginOp [] s) := by
  simp [step, takeRequest, takeWord, hreq, hpend, runCommand_of_decode decode_tickWord]

/-- Settles O7. -/
theorem tickRequestRunsTick : Obligations.TickRequestRunsTick := fun _ _ => step_of_tick

/-- Settles O8: the empty request list stays empty. -/
theorem noRequestMeansNextTick : Obligations.NoRequestMeansNextTick := by
  intro s hreq hpend
  have hbegin : beginOp [] s = { s with trace := [] } := by rw [beginOp, ← hreq]
  rw [step_of_no_request hreq hpend, hbegin]

/-! ### The register reset -/

theorem step_of_rst {s : State} {rest : List Request} (hreq : s.requests = .rst :: rest) :
    step s = .next (registerReset (beginOp rest s)) := by
  simp [step, takeRequest, hreq]

/-- Settles O9: the register reset keeps the sector, the device, the requests and the inputs, and takes all else from `State.reset`. -/
theorem resetSetsEveryRegister : Obligations.ResetSetsEveryRegister := by
  have hreset : RegistersReset State.reset := by decide
  refine ⟨hreset, fun s rest hreq => ⟨_, step_of_rst hreq, hreset, ?_⟩⟩
  exact ⟨rfl, rfl, rfl, rfl, rfl, rfl⟩

/-! ### The reset sequence -/

/-- While it is pending, the reset sequence is what the step runs, unless `rst` is next (R361, R364). -/
theorem step_of_pending {s : State} (hpend : s.resetPending = true) (hnext : NoRstNext s) :
    step s = resetSequence (beginOp s.requests s) := by
  rcases takeRequest_cases s with ⟨rest, hreq, -⟩ | ⟨-, -, htake⟩ | ⟨hover, -⟩
  · exact absurd hreq (hnext rest)
  · rw [step, htake]
  · rw [hpend] at hover
    cases hover

theorem recordLed_eq (b : Byte) : recordLed b = ledOfCode (BitVec.ofNat 3 (b.toNat / 2 % 4)) := by
  revert b
  decide

theorem recordRvc_eq (b : Byte) : recordRvc b = if b.toNat / 8 % 2 = 1 then .traditionalCurve else .defaultWithMute := by
  revert b
  decide

/-- The modes a record restores, by the record's number (R136, R361). -/
theorem restoreModes_eq (r : Option Byte) (s : State) :
    restoreModes r s =
      { s with
        ledMode := ledOfCode (BitVec.ofNat 3 ((r.getD 0x00#8).toNat / 2 % 4))
        rvcMode := if (r.getD 0x00#8).toNat / 8 % 2 = 1 then .traditionalCurve else .defaultWithMute } := by
  rw [restoreModes, recordLed_eq, recordRvc_eq]

/-- A slot that holds no record is passed by. -/
theorem prefScan_succ_skip {n : Nat} {s : State} (hn : n < 512) (hok : (nextOk s.inputs).1 = true)
    (hrec : isRecord (Memory.get s.sector n) = false) :
    prefScan (n + 1) s = prefScan n
      (emit [.nvr (BitVec.ofNat 9 n) (some (Memory.get s.sector n))] (withInputs (nextOk s.inputs).2 s)) := by
  have haddr : (BitVec.ofNat 9 n).toNat = n := by rw [BitVec.toNat_ofNat]; omega
  rw [prefScan, nvRead_ok hok, haddr]
  exact if_neg (by simp [hrec])

/-- What a scan answers shows in the state it leaves: PREF_EFF where it succeeded (R302, R306). -/
theorem prefScan_fst {n : Nat} (hn : n ≤ 512) (s : State) :
    (prefScan n s).1 = if (prefScan n s).2.prefInit then some (prefScan n s).2.prefEff else none := by
  induction n generalizing s with
  | zero => rfl
  | succ n ih =>
    cases hok : (nextOk s.inputs).1 with
    | false => rw [prefScan_succ_fail hok]; rfl
    | true =>
      cases hrec : isRecord (Memory.get s.sector n) with
      | true => rw [prefScan_succ_record hn hok rfl hrec]; rfl
      | false => rw [prefScan_succ_skip hn hok hrec]; exact ih (by omega) _

theorem prefRead_fst (s : State) :
    (prefRead s).1 = if (prefRead s).2.prefInit then some (prefRead s).2.prefEff else none :=
  prefScan_fst le_rfl s

/-- The state PREFREAD starts from in the reset sequence (R361). -/
def sequenceBegun (s : State) : State := { s with resetPending := false, trace := [] }

/-- The reset sequence as the step that takes it runs it. -/
theorem step_eq_resetSequence {s : State} (hpend : s.resetPending = true) (hnext : NoRstNext s) :
    step s = andThen
      (batSample (restoreModes (prefRead (sequenceBegun s)).1 (prefRead (sequenceBegun s)).2)) (rvcUpdate true) :=
  step_of_pending hpend hnext

/-- Settles O10: the modes are restored from what PREFREAD answered, which the state it leaves tells. -/
theorem resetSequenceOrder : Obligations.ResetSequenceOrder := by
  intro s hpend hnext
  refine ⟨(prefRead (sequenceBegun s)).2, rfl, ?_⟩
  intro r
  have hrecord : ((prefRead (sequenceBegun s)).1.getD 0x00#8).toNat = r := by
    simp only [prefRead_fst, r]
    split <;> rfl
  rw [step_eq_resetSequence hpend hnext, restoreModes_eq, hrecord]
  rfl

end Sys2Proof.Machine
end

section
/-! SUPPORT. The frames STEPSET and RVCUPD send, event by event (R200, R220 to R226). -/

namespace Sys2Proof.Machine

@[simp] theorem exec_stepset (level : Byte) (s : State) : exec (.stepset level) s = .next (stepSet level s) := rfl

/-! ### One frame -/

theorem frameEvents_eq (d : Bool) (w : Word) :
    frameEvents d w = [.ser false d false] ++ sentBits w 16 ++ [.ser false (w.getLsbD 0) true, .ser false true true] := by
  simp [frameEvents, sentBits]

/-- A frame leaves the lines idle, and the device holding its 16 bits and what it takes from the low 8 of them (R224, R226). -/
theorem serialFrame_eq (w : Word) (s : State) :
    serialFrame w s =
      { s with
        attClk := false, attData := true, attLoad := true
        device := ⟨w, deviceTakes (w.setWidth 8)⟩
        trace := s.trace ++ frameEvents s.attData w } := by
  obtain ⟨d, hbits⟩ := serialBits_eq w 16 (pins false s.attData false s) rfl rfl
  rw [serialFrame, hbits, frameEvents_eq]
  simp [pins, emit, deviceSees, sampledBits_all]

theorem frameWord_eq (level : Byte) : frameWord level = 0x00#8 ++ level := rfl

theorem setWidth_frame (level : Byte) : (0x00#8 ++ level : Word).setWidth 8 = level := by
  revert level
  decide

/-- STEPSET: one frame of the level, and ATT_CUR (R220). -/
theorem stepSet_eq (level : Byte) (s : State) :
    stepSet level s =
      { s with
        attCur := some level, attClk := false, attData := true, attLoad := true
        device := ⟨0x00#8 ++ level, deviceTakes level⟩
        trace := s.trace ++ frameEvents s.attData (0x00#8 ++ level) ++ [.att level] } := by
  rw [stepSet, frameWord_eq, serialFrame_eq, setWidth_frame]
  rfl

/-- Settles O24. -/
theorem stepsetSendsOneFrame : Obligations.StepsetSendsOneFrame := by
  intro level s
  rw [exec_stepset, stepSet_eq]
  rfl

/-! ### The frames of a ramp -/

/-- The state after frames that end at `level` and made the events `es`. -/
def framesSent (level : Byte) (es : List Event) (s : State) : State :=
  { s with
    attCur := some level, attClk := false, attData := true, attLoad := true
    device := ⟨0x00#8 ++ level, deviceTakes level⟩, trace := s.trace ++ es }

/-- The events of one frame and its completion, DATA being at `d` before it (R220). -/
def stepSetEvents (d : Bool) (level : Byte) : List Event := frameEvents d (0x00#8 ++ level) ++ [.att level]

theorem stepSet_eq_framesSent (level : Byte) (s : State) :
    stepSet level s = framesSent level (stepSetEvents s.attData level) s := by
  rw [stepSet_eq, framesSent, stepSetEvents, List.append_assoc]

/-- A STEP_DELAY and the frame after it, which finds DATA idle (R200). -/
def laterFrame (l : Nat) : List Event := [.delay .step] ++ stepSetEvents true (BitVec.ofNat 8 l)

/-- The frames after the first of a ramp, which ended at `l`. -/
theorem sendFrames_framesSent (ls : List Nat) (l : Nat) (es : List Event) (s : State) :
    sendFrames false ls (framesSent (BitVec.ofNat 8 l) es s) =
      framesSent (BitVec.ofNat 8 (ls.getLastD l)) (es ++ ls.flatMap laterFrame) s := by
  induction ls generalizing l es with
  | nil => simp [sendFrames]
  | cons x xs ih =>
    have hframe : stepSet (BitVec.ofNat 8 x) (delay .step (framesSent (BitVec.ofNat 8 l) es s)) =
        framesSent (BitVec.ofNat 8 x) (es ++ laterFrame x) s := by
      simp [stepSet_eq_framesSent, framesSent, delay, emit, laterFrame]
    simp only [sendFrames, Bool.false_eq_true, if_false]
    rw [hframe, ih, List.getLastD_cons, List.flatMap_cons, List.append_assoc]

/-- A ramp of at least one frame. -/
theorem sendFrames_cons (l : Nat) (ls : List Nat) (s : State) :
    sendFrames true (l :: ls) s =
      framesSent (BitVec.ofNat 8 (ls.getLastD l))
        (stepSetEvents s.attData (BitVec.ofNat 8 l) ++ ls.flatMap laterFrame) s := by
  rw [sendFrames, if_pos rfl, stepSet_eq_framesSent, sendFrames_framesSent]

/-- The `k`-th level of a ramp from `prev` to `goal` (R200). -/
def rampLevel (goal prev k : Nat) : Nat := if goal > prev then prev + k + 1 else prev - (k + 1)

/-- The events of the first `d` frames of a ramp. -/
def rampEvents (goal prev : Nat) (data : Bool) (d : Nat) : List Event :=
  (List.range d).flatMap fun k =>
    (if k = 0 then [] else [.delay .step]) ++
      stepSetEvents (if k = 0 then data else true) (BitVec.ofNat 8 (rampLevel goal prev k))

theorem rampEvents_succ (goal prev : Nat) (data : Bool) (m : Nat) :
    rampEvents goal prev data (m + 1) =
      stepSetEvents data (BitVec.ofNat 8 (rampLevel goal prev 0)) ++
        ((List.range m).map fun k => rampLevel goal prev (k + 1)).flatMap laterFrame := by
  rw [rampEvents, List.range_succ_eq_map, List.flatMap_cons, List.flatMap_map, List.flatMap_map]
  rfl

/-- The last level of a ramp is the goal. -/
theorem rampLevel_last {goal prev m : Nat} (h : (goal - prev) + (prev - goal) = m + 1) : rampLevel goal prev m = goal := by
  unfold rampLevel
  split <;> omega

theorem getLastD_rampLevels (goal prev m : Nat) :
    ((List.range m).map fun k => rampLevel goal prev (k + 1)).getLastD (rampLevel goal prev 0) = rampLevel goal prev m := by
  cases m with
  | zero => rfl
  | succ m => rw [List.range_succ, List.map_append, List.map_singleton, List.getLastD_concat]

/-- The ramp of an update that is not forced: no frame where the goal is ATT_PREV (R200). -/
theorem sendUpdate_ramp (goal : Nat) (s : State) :
    sendUpdate false goal s =
      if goal = s.attPrev.toNat then s
      else framesSent (BitVec.ofNat 8 goal)
        (rampEvents goal s.attPrev.toNat s.attData ((goal - s.attPrev.toNat) + (s.attPrev.toNat - goal))) s := by
  generalize hprev : s.attPrev.toNat = prev
  generalize hd : (goal - prev) + (prev - goal) = d
  have hlevels : rampLevels goal d prev = (List.range d).map (rampLevel goal prev) := rampLevels_eq goal prev d hd
  have hsend : sendUpdate false goal s = sendFrames true ((List.range d).map (rampLevel goal prev)) s := by
    rw [← hlevels, ← hd, ← distance_eq, ← hprev]
    rfl
  rw [hsend]
  cases d with
  | zero => rw [if_pos (by omega)]; rfl
  | succ m =>
    rw [if_neg (by omega), List.range_succ_eq_map, List.map_cons, List.map_map, sendFrames_cons, rampEvents_succ]
    rw [Function.comp_def, getLastD_rampLevels, rampLevel_last hd]

theorem sendUpdate_forced (goal : Nat) (s : State) :
    sendUpdate true goal s = framesSent (BitVec.ofNat 8 goal) (stepSetEvents s.attData (BitVec.ofNat 8 goal)) s :=
  stepSet_eq_framesSent _ s

/-! ### RVCUPD -/

theorem rvcUpdate_of_ready {force : Bool} {s : State} {raw : Byte} {p : Inputs}
    (h : nextReading .rvc s.inputs = (some raw, p)) :
    rvcUpdate force s = .next (setAttPrev (target raw s.rvcMode)
      (sendUpdate force (target raw s.rvcMode) (emit [.adc .rvc raw] (withInputs p s)))) :=
  rvcUpdate_eq_next.2 ⟨raw, _, adcRead_ready h, rfl⟩

/-- The device takes every target, for none is above 64 (R201, R226). -/
theorem deviceTakes_target (raw : Byte) (mode : RvcMode) :
    deviceTakes (BitVec.ofNat 8 (target raw mode)) = BitVec.ofNat 8 (target raw mode) := by
  have hle := target_le raw mode
  rw [deviceTakes, ofNat8_toNat (by omega), if_pos hle]

/-- Settles O25. -/
theorem rvcupdResult : Obligations.RvcupdResult := by
  intro s raw p hready goal prev level frames
  constructor
  · rw [exec_rvcupd, rvcUpdate_of_ready hready, sendUpdate_forced, framesSent, deviceTakes_target, stepSetEvents,
      ← List.append_assoc]
    rfl
  · have hframes : frames = rampEvents goal prev s.attData ((goal - prev) + (prev - goal)) := by
      simp only [frames, rampEvents, stepSetEvents, List.append_assoc]
      rfl
    rw [exec_rvcupd, rvcUpdate_of_ready hready, sendUpdate_ramp, hframes]
    by_cases hstay : goal = prev
    · have hnone : rampEvents goal prev s.attData ((goal - prev) + (prev - goal)) = [] := by
        rw [hstay, Nat.sub_self]
        rfl
      simp only [hnone, List.append_nil, if_pos hstay]
      exact congrArg (fun u => Host.Outcome.next (setAttPrev goal u)) (if_pos hstay)
    · simp only [if_neg hstay]
      refine (congrArg (fun u => Host.Outcome.next (setAttPrev goal u)) (if_neg hstay)).trans ?_
      rw [framesSent, deviceTakes_target]
      rfl

end Sys2Proof.Machine
end

section
/-! SUPPORT. PREFWRITE (R303, R306): nothing for the effective record, an append below 512, an erase and an append at 512, each access
successful or failed. -/

namespace Sys2Proof.Machine

section
variable {s : State} {c : Byte}

/-! ### The append -/

theorem cursorSlot_toNat (h : s.prefCur.toNat < 512) : (s.prefCur.setWidth 9).toNat = s.prefCur.toNat := by
  rw [BitVec.toNat_setWidth, Nat.mod_eq_of_lt h]

theorem cursorSlot_eq (s : State) : s.prefCur.setWidth 9 = BitVec.ofNat 9 s.prefCur.toNat := rfl

/-- The state a successful append of `c` leaves: the slot at the cursor written, the cursor one further (R303). -/
def appended (c : Byte) (s : State) : State :=
  { s with
    prefCur := s.prefCur + 1#10, prefEff := c, sector := Memory.set s.sector s.prefCur.toNat c
    inputs := (nextOk s.inputs).2, trace := s.trace ++ [.nvw (BitVec.ofNat 9 s.prefCur.toNat) c true] }

theorem prefAppend_of_ok (hcur : s.prefCur.toNat < 512) (hok : (nextOk s.inputs).1 = true) :
    prefAppend c s = (true, appended c s) := by
  rw [prefAppend, nvWrite_ok hok, cursorSlot_toNat hcur, cursorSlot_eq]
  rfl

/-- A failed append leaves a drawn byte in the slot at the cursor, and clears PREF_INIT (R306). -/
theorem prefAppend_of_fail (hcur : s.prefCur.toNat < 512) (hfail : (nextOk s.inputs).1 = false) :
    prefAppend c s = (false,
      { s with
        prefInit := false
        sector := Memory.set s.sector s.prefCur.toNat (nextLeft (afterOk 1 s.inputs)).1
        inputs := afterLeft 1 (afterOk 1 s.inputs)
        trace := s.trace ++
          [.nvw (BitVec.ofNat 9 s.prefCur.toNat) c false, .err (.nvWriteFail (BitVec.ofNat 9 s.prefCur.toNat))] }) := by
  rw [prefAppend, nvWrite_fail hfail, cursorSlot_toNat hcur, cursorSlot_eq]
  simp [raiseNv, emit, withSector, withInputs, afterOk, afterLeft]

/-! ### The commit -/

theorem prefCommit_of_effective (h : c = s.prefEff) : prefCommit c s = (true, s) := if_pos h

theorem prefCommit_of_lt (hne : c ≠ s.prefEff) (hcur : s.prefCur.toNat < 512) : prefCommit c s = prefAppend c s := by
  have hnotfull : s.prefCur ≠ 512#10 := by rintro h; rw [h] at hcur; exact absurd hcur (by decide)
  rw [prefCommit, if_neg hne, if_neg hnotfull]

/-- The state after the sector was erased for an append to its slot 0 (R303). -/
def erasedForAppend (s : State) : State :=
  { s with prefCur := 0#10, sector := [], inputs := (nextOk s.inputs).2, trace := s.trace ++ [.nve true] }

theorem erasedForAppend_prefCur_lt (s : State) : (erasedForAppend s).prefCur.toNat < 512 :=
  show (0#10).toNat < 512 by decide

theorem prefCommit_of_full (hne : c ≠ s.prefEff) (hfull : s.prefCur = 512#10) (hok : (nextOk s.inputs).1 = true) :
    prefCommit c s = prefAppend c (erasedForAppend s) := by
  rw [prefCommit, if_neg hne, if_pos hfull, nvErase_ok hok]
  rfl

/-- A failed erase leaves a drawn byte in every slot, and clears PREF_INIT (R306). -/
theorem prefCommit_of_erase_fail (hne : c ≠ s.prefEff) (hfull : s.prefCur = 512#10) (hfail : (nextOk s.inputs).1 = false) :
    prefCommit c s = (false,
      { s with
        prefInit := false, sector := (drawnSlots 0 512 (afterOk 1 s.inputs)).1
        inputs := afterLeft 512 (afterOk 1 s.inputs), trace := s.trace ++ [.nve false, .err .nvEraseFail] }) := by
  rw [prefCommit, if_neg hne, if_pos hfull, nvErase_fail hfail, drawnSlots_snd]
  simp [raiseNv, emit, withSector, withInputs, afterOk]

/-! ### PREFWRITE -/

theorem prefWrite_of_ready (r : Byte) (h : s.prefInit = true) : prefWrite r s = prefCommit (r &&& 0x7F#8) s := if_pos h

/-- With PREF_INIT = 0 the cursor is recovered first, and the commit is on what that read left (R303). -/
theorem prefWrite_of_unready (r : Byte) (h : s.prefInit = false) :
    prefWrite r s =
      if (prefRead s).2.prefInit then prefCommit (r &&& 0x7F#8) (prefRead s).2 else (false, (prefRead s).2) := by
  have hread : (prefRead s).1.isSome = (prefRead s).2.prefInit := Bool.eq_iff_iff.2 (prefScan_isSome _ _)
  rw [prefWrite, prefReady, h, if_neg Bool.false_ne_true]
  simp only [hread]

end

/-- Settles O41. -/
theorem prefwriteOfEffectiveRecord : Obligations.PrefwriteOfEffectiveRecord := by
  intro s r hinit heff
  rw [exec_prefwrite, prefWrite_of_ready r hinit, prefCommit_of_effective heff]
  exact ⟨rfl, rfl⟩

/-- Settles O42. -/
theorem prefwriteAppends : Obligations.PrefwriteAppends := by
  intro s r hwf hinit hne hcur hok
  rw [exec_prefwrite, prefWrite_of_ready r hinit, prefCommit_of_lt hne hcur, prefAppend_of_ok hcur hok]
  exact ⟨rfl, _, Memory.wf_set _ hwf hcur, fun a => Memory.get_set_from _ a hwf, rfl⟩

/-- Settles O43: the append is to slot 0 of an empty sector. -/
theorem prefwriteErasesWhenFull : Obligations.PrefwriteErasesWhenFull := by
  intro s r hinit hne hfull hok
  obtain ⟨herase, hwrite⟩ : (nextOk s.inputs).1 = true ∧ (nextOk (nextOk s.inputs).2).1 = true := by
    simpa [okReady] using hok
  rw [exec_prefwrite, prefWrite_of_ready r hinit, prefCommit_of_full hne hfull herase,
    prefAppend_of_ok (erasedForAppend_prefCur_lt s) hwrite]
  refine ⟨rfl, Memory.set [] 0 (r &&& 0x7F#8), fun a => Memory.get_set_from (m := []) (lo := 0) _ a rfl, ?_⟩
  simp [appended, erasedForAppend, afterOk]

/-- Settles O44: a failed append, a failed erase, and a failed append to the sector just erased. -/
theorem prefwriteFailures : Obligations.PrefwriteFailures := by
  intro s r hwf hinit hne
  rw [exec_prefwrite, prefWrite_of_ready r hinit]
  refine ⟨fun hcur hfail => ?_, fun hfull hfail => ?_, fun hfull hok hfail => ?_⟩
  · rw [prefCommit_of_lt hne hcur, prefAppend_of_fail hcur hfail]
    exact ⟨rfl, _, Memory.wf_set _ hwf hcur, fun a ha => Memory.get_set_other _ hwf ha, rfl⟩
  · rw [prefCommit_of_erase_fail hne hfull hfail]
    exact ⟨rfl, _, drawnSlots_wf 0 512 _ le_rfl, rfl⟩
  · rw [prefCommit_of_full hne hfull hok, prefAppend_of_fail (erasedForAppend_prefCur_lt s) hfail]
    refine ⟨rfl, Memory.set [] 0 (nextLeft (afterOk 2 s.inputs)).1, Memory.wf_set _ rfl (by decide),
      fun a ha => Memory.get_set_other (m := []) _ rfl ha, ?_⟩
    simp [erasedForAppend, afterOk]

/-- Settles O45. -/
theorem prefwriteRecoversCursorFirst : Obligations.PrefwriteRecoversCursorFirst := by
  intro s r hinit
  refine ⟨(prefRead s).2, rfl, fun hread => ?_, fun hread => ?_⟩
  · rw [exec_prefwrite, exec_prefwrite, prefWrite_of_unready r hinit, if_pos hread, prefWrite_of_ready r hread]
    exact ⟨rfl, rfl⟩
  · rw [exec_prefwrite, prefWrite_of_unready r hinit, if_neg (by simp [hread])]
    exact ⟨rfl, rfl⟩

end Sys2Proof.Machine
end

section
/-! SUPPORT. The preference log (R300, R305, R307): records below its length and 0xFF from it on. An append lengthens it by one and makes
the record written the effective one; a read finds the record in its last slot. -/

namespace Sys2Proof.Machine

/-! ### The shape of a log -/

theorem isRecord_erased : isRecord 0xFF#8 = false := by decide

theorem isRecord_of_bit {r : Byte} (h : r.getLsbD 7 = false) : isRecord r = true := by
  rw [isRecord, h]
  rfl

theorem logShape_erased {m : Memory} (h : SectorErased m) : LogShape m 0 :=
  ⟨Nat.zero_le _, fun _ ha => absurd ha (Nat.not_lt_zero _), fun a _ ha => h a ha⟩

theorem logShape_nil : LogShape [] 0 := logShape_erased fun _ _ => rfl

section
variable {m : Memory} {k : Nat} {c : Byte}

/-- A record written at the end of a log lengthens it (R303, R305). -/
theorem LogShape.append (h : LogShape m k) (hwf : Memory.wf m = true) (hk : k < 512) (hc : isRecord c = true) :
    LogShape (Memory.set m k c) (k + 1) := by
  obtain ⟨-, hrecords, herased⟩ := h
  refine ⟨hk, fun a ha => ?_, fun a hlo hhi => ?_⟩
  · by_cases hlast : a = k
    · rw [hlast, Memory.get_set_same _ hwf]
      exact hc
    · rw [Memory.get_set_other _ hwf hlast]
      exact hrecords a (by omega)
  · rw [Memory.get_set_other _ hwf (by omega)]
    exact herased a (by omega) hhi

theorem effectiveOf_append (hwf : Memory.wf m = true) : effectiveOf (Memory.set m k c) (k + 1) = c :=
  Memory.get_set_same _ hwf

/-- No slot from the end of a log on holds a record. -/
theorem LogShape.not_record (h : LogShape m k) {a : Nat} (hlo : k ≤ a) (hhi : a < 512) :
    isRecord (Memory.get m a) = false := by
  obtain ⟨-, -, herased⟩ := h
  rw [herased a hlo hhi, isRecord_erased]

/-- The newest record of a log is in its last slot (R300). -/
theorem LogShape.newest (h : LogShape m (k + 1)) : NewestRecord m k (Memory.get m k) := by
  have ⟨hk, hrecords, _⟩ := h
  exact ⟨hk, rfl, hrecords k (Nat.lt_succ_self k), fun a hlo hhi => h.not_record hlo hhi⟩

end

/-! ### The log invariant -/

/-- The registers and the sector agree on a log of `k` records (R305, PREF_INIT = 1). -/
structure KnownLog (k : Nat) (s : State) : Prop where
  shape : LogShape s.sector k
  cursor : s.prefCur.toNat = k
  effective : s.prefEff = effectiveOf s.sector k

theorem KnownLog.logInvariant {k : Nat} {s : State} (h : KnownLog k s) : LogInvariant s :=
  ⟨k, h.shape, fun _ => ⟨h.cursor, h.effective⟩⟩

theorem LogInvariant.known {s : State} (h : LogInvariant s) (hinit : s.prefInit = true) : ∃ k, KnownLog k s := by
  obtain ⟨k, hshape, hregs⟩ := h
  obtain ⟨hcur, heff⟩ := hregs hinit
  exact ⟨k, hshape, hcur, heff⟩

/-- With PREF_INIT = 0 only the sector counts (R305). -/
theorem logInvariant_of_unready {k : Nat} {s : State} (hshape : LogShape s.sector k) (hinit : s.prefInit = false) :
    LogInvariant s :=
  ⟨k, hshape, fun h => absurd h (by simp [hinit])⟩

/-- A state with the same sector and preference registers has the same log. -/
theorem LogInvariant.of_eq {s t : State} (h : LogInvariant s) (hsec : t.sector = s.sector) (hcur : t.prefCur = s.prefCur)
    (hinit : t.prefInit = s.prefInit) (heff : t.prefEff = s.prefEff) : LogInvariant t := by
  rw [LogInvariant, hsec, hcur, hinit, heff]
  exact h

/-- The cursor is at the end of a log of `k` records that is not full. -/
structure AtEnd (k : Nat) (s : State) : Prop where
  shape : LogShape s.sector k
  cursor : s.prefCur.toNat = k
  room : k < 512
  canonical : Memory.wf s.sector = true

theorem erasedForAppend_atEnd (s : State) : AtEnd 0 (erasedForAppend s) :=
  ⟨logShape_nil, rfl, by decide, rfl⟩

section
variable {k : Nat} {c : Byte} {s : State}

theorem AtEnd.append_of_ok (h : AtEnd k s) (hok : (nextOk s.inputs).1 = true) : prefAppend c s = (true, appended c s) :=
  prefAppend_of_ok (h.cursor.trans_lt h.room) hok

/-- An append to a log gives a log whose effective record is the one appended (R303, R305). -/
theorem AtEnd.known_appended (h : AtEnd k s) (hc : isRecord c = true) : KnownLog (k + 1) (appended c s) := by
  obtain ⟨hshape, rfl, hroom, hwf⟩ := h
  have hnext : (s.prefCur + 1#10).toNat = s.prefCur.toNat + 1 := by bv_omega
  exact ⟨hshape.append hwf hroom hc, hnext, (effectiveOf_append hwf).symm⟩

/-- The commit of another record appends to the log as it is or, where that is full, to the sector erased first (R303). -/
theorem KnownLog.commit (h : KnownLog k s) (hwf : Memory.wf s.sector = true) (hne : c ≠ s.prefEff) :
    (AtEnd k s ∧ prefCommit c s = prefAppend c s) ∨
      (s.prefCur = 512#10 ∧ ((nextOk s.inputs).1 = true → prefCommit c s = prefAppend c (erasedForAppend s))) := by
  obtain ⟨hshape, hcur, -⟩ := h
  have ⟨hle, _, _⟩ := hshape
  rcases Nat.lt_or_eq_of_le hle with hroom | hfull
  · exact .inl ⟨⟨hshape, hcur, hroom, hwf⟩, prefCommit_of_lt hne (hcur.trans_lt hroom)⟩
  · have hcur512 : s.prefCur = 512#10 := BitVec.eq_of_toNat_eq (hcur.trans hfull)
    exact .inr ⟨hcur512, prefCommit_of_full hne hcur512⟩

/-! ### A written record is found -/

/-- A read of a known log with every access successful finds the effective record, the cursor, and nothing to change (R302, R307). -/
theorem KnownLog.read (h : KnownLog (k + 1) s) (hok : okReady (512 - k) s.inputs = true) :
    ∃ u, exec .prefread s = .next u ∧ u.prefEff = s.prefEff ∧ u.prefInit = true ∧ u.prefCur = s.prefCur ∧
      u.sector = s.sector := by
  obtain ⟨hshape, hcur, heff⟩ := h
  have hread := prefRead_of_newest hshape.newest hok
  refine ⟨(prefRead s).2, rfl, ?_⟩
  rw [hread]
  refine ⟨heff.symm, rfl, ?_, rfl⟩
  show BitVec.ofNat 10 (k + 1) = s.prefCur
  rw [← hcur, BitVec.ofNat_toNat, BitVec.setWidth_eq]

/-- A record appended is the one the next read finds (R307). -/
theorem AtEnd.read_appended (h : AtEnd k s) (hc : isRecord c = true) (hok : okReady (513 - k) s.inputs = true) :
    prefAppend c s = (true, appended c s) ∧
      ∃ u, exec .prefread (appended c s) = .next u ∧ u.prefEff = c ∧ u.prefInit = true ∧
        u.prefCur = (appended c s).prefCur ∧ u.sector = (appended c s).sector := by
  have hcount : 513 - k = (512 - k) + 1 := by have := h.room; omega
  rw [hcount, okReady, Bool.and_eq_true] at hok
  obtain ⟨hwrite, hread⟩ := hok
  exact ⟨h.append_of_ok hwrite, (h.known_appended hc).read hread⟩

end

/-- Settles O46: the append, to the log or to the sector erased first, then the read of the log it leaves. -/
theorem writeThenReadGivesRecord : Obligations.WriteThenReadGivesRecord := by
  intro s r hlog hwf hinit hbit hne hok
  obtain ⟨k, hknown⟩ := hlog.known hinit
  have hcandidate : r &&& 0x7F#8 = r := candidate_of_record hbit
  have hagain : ∀ u : State, u.prefInit = true →
      exec (.prefwrite r) (appended r u) = .next (appended r u) :=
    fun u hu => (prefwriteOfEffectiveRecord (appended r u) r hu hcandidate).2
  rw [exec_prefwrite, prefWrite_of_ready r hinit, hcandidate]
  rcases hknown.commit hwf hne with ⟨hend, hcommit⟩ | ⟨-, hcommit⟩
  · obtain ⟨happend, u, hread⟩ := hend.read_appended (isRecord_of_bit hbit) (okReady_of_le hok (by omega))
    rw [hcommit, happend]
    exact ⟨_, _, u, rfl, rfl, rfl, hagain s hinit, hread⟩
  · rw [okReady, Bool.and_eq_true] at hok
    obtain ⟨herase, hrest⟩ := hok
    obtain ⟨happend, u, hread⟩ := (erasedForAppend_atEnd s).read_appended (isRecord_of_bit hbit) hrest
    rw [hcommit herase, happend]
    exact ⟨_, [.nve true, .nvw 0#9 r true], u, rfl, by simp [appended, erasedForAppend], rfl, hagain _ hinit, hread⟩

/-- Settles O58: the default record in slot 0 is a log of one record. -/
theorem prefinitStartsLog : Obligations.PrefinitStartsLog := by
  intro s herased hwf hok
  have hknown : KnownLog 1 (prefInitialise s).2 := by
    rw [prefInitialise_of_ok hok]
    exact ⟨(logShape_erased herased).append hwf (by decide) (by decide), rfl, (effectiveOf_append hwf).symm⟩
  refine ⟨_, exec_prefinit s, hknown.logInvariant, ?_⟩
  rw [prefInitialise_of_ok hok]
  exact ⟨rfl, rfl⟩

end Sys2Proof.Machine
end

section
/-! SUPPORT. The VU meter's decay (R273) and its first sample in VuMeter mode (R277). -/

namespace Sys2Proof.Machine

/-! ### The decay -/

/-- VU_STATE after one sample of a zero signal (R271). -/
def decay (v : Nat) : Nat := smooth v 0

theorem decay_iterate_zero (n : Nat) : decay^[n] 0 = 0 := Function.iterate_fixed rfl n

/-- The decay stays at 0, so a sample that is not 0 has none before it. -/
theorem decay_ne_zero_of_le {v k n : Nat} (h : decay^[n] v ≠ 0) (hk : k ≤ n) : decay^[k] v ≠ 0 := by
  intro hzero
  apply h
  rw [← Nat.sub_add_cancel hk, Function.iterate_add_apply, hzero, decay_iterate_zero]

/-- Where the floor cuts the value after `n` samples, 0 is reached at the next sample and not before. -/
theorem decay_first_zero {v n last : Nat} (h : decay^[n] v = last) (hlast : last ≠ 0) (hcut : decay last = 0) :
    (∀ k < n + 1, decay^[k] v ≠ 0) ∧ decay^[n + 1] v = 0 :=
  ⟨fun _ hk => decay_ne_zero_of_le (by rwa [h]) (Nat.le_of_lt_succ hk), by rw [Function.iterate_succ_apply', h, hcut]⟩

/-- Settles O27: the sample before the named one is the last above the floor of 256 (R271). -/
theorem vuDecayReachesZero : Obligations.VuDecayReachesZero := by
  have hmax : decay^[85] 0xFFFF = 265 := by decide +kernel
  have hhalf : decay^[74] 0x8000 = 270 := by decide +kernel
  obtain ⟨hmaxBefore, hmaxZero⟩ := decay_first_zero hmax (by decide) rfl
  obtain ⟨hhalfBefore, hhalfZero⟩ := decay_first_zero hhalf (by decide) rfl
  exact ⟨hmaxBefore, hmaxZero, hhalfBefore, hhalfZero, rfl⟩

/-! ### The first sample -/

theorem windowMax_le {w : Vector Byte 4} {n : Nat} (h : ∀ (i : Nat) (hi : i < 4), w[i].toNat ≤ n) : windowMax w ≤ n :=
  max_le (max_le (h 0 _) (h 1 _)) (max_le (h 2 _) (h 3 _))

/-- From the maximum even the loudest window decays: 128 × 256 is below it (R277). -/
theorem smooth_of_max {sig : Nat} (h : sig ≤ 128) : smooth 0xFFFF sig = 0xEFFF := by
  rw [smooth_eq, if_neg (by omega)]
  rfl

/-- VUSAMP smooths VU_STATE towards a window whose slots stay within 0..128 (R43, R270). -/
theorem vuSample_vuState {s t : State} (h : vuSample s = .next t) (hwin : ∀ (i : Nat) (hi : i < 4), s.vuWin[i].toNat ≤ 128) :
    ∃ sig ≤ 128, t.vuState = BitVec.ofNat 16 (smooth s.vuState.toNat sig) := by
  obtain ⟨bs, s1, hreads, rfl⟩ := vuSample_eq_next.1 h
  obtain ⟨-, hs1⟩ := adcReads_ok hreads
  have hwin1 : s1.vuWin = s.vuWin := by rw [hs1]; rfl
  have hstate1 : s1.vuState = s.vuState := by rw [hs1]; rfl
  refine ⟨windowMax (vuTake bs s1).vuWin, windowMax_le (setVuWin_le _ ?_ (peak_toNat_le bs)), ?_⟩
  · rw [hwin1]
    exact hwin
  · rw [← hstate1]
    rfl

/-- Settles O28: the handler leaves the maximum in VU_STATE, the window as it was. -/
theorem firstSampleAfterEnteringVuMeter : Obligations.FirstSampleAfterEnteringVuMeter := by
  intro s t u hmode ⟨hw0, hw1, hw2, hw3⟩ hrelease hsample
  have hnext : nextLedMode s.ledMode = .vuMeter := by rw [hmode]; rfl
  obtain ⟨cur, ini, eff, sec, inp, es, -, hpersist⟩ := persistModes_prefOnly (advanceMode s)
  rw [exec_swevt, switchEvent_release_sw0, hpersist] at hrelease
  cases hrelease
  have hwin : ∀ (i : Nat) (hi : i < 4), s.vuWin[i].toNat ≤ 128
    | 0, _ => hw0
    | 1, _ => hw1
    | 2, _ => hw2
    | 3, _ => hw3
  have hmax : (advanceMode s).vuState = 0xFFFF#16 := if_pos hnext
  obtain ⟨sig, hsig, hu⟩ := vuSample_vuState hsample hwin
  rw [hmax, show (0xFFFF#16).toNat = 0xFFFF from rfl, smooth_of_max hsig] at hu
  exact ⟨hnext, hmax, hu, by rw [hu]; rfl⟩

end Sys2Proof.Machine
end

section
/-! SUPPORT. Where an operation stops: at a conversion that never completes (R333), and at a RENDER that reads an empty BATT (R49). -/

namespace Sys2Proof.Machine

/-- Settles O34. -/
theorem renderFaultsOnBottom : Obligations.RenderFaultsOnBottom :=
  fun _ hidle hbatt => render_eq_fault.2 ⟨hidle, hbatt, rfl⟩

/-- Settles O38: each of the three starts with its conversions. -/
theorem hangingSensorIsStuck : Obligations.HangingSensorIsStuck := by
  intro s force
  refine ⟨fun hhang => ?_, fun hhang => ?_, fun hhang => ?_⟩
  · rw [exec_batsamp, batSample, adcRead_eq_error.2 ⟨hhang, rfl⟩]
  · rw [exec_rvcupd, rvcUpdate, adcRead_eq_error.2 ⟨hhang, rfl⟩]
  · rw [exec_vusamp, vuSample, adcReads_hangs hhang]

end Sys2Proof.Machine
end

section
/-! SUPPORT. Operations that leave the preference log alone (R84, R166): all but the preference operations and a release handler. A relation
that these keep, and that a committed release keeps, holds across every instruction that is none of them. -/

namespace Sys2Proof.Machine

/-- From `s` to `t` no NV access was made, and the sector, the preference registers and the model's own request registers stayed. -/
structure LeavesLog (s t : State) : Prop where
  sector : t.sector = s.sector
  cursor : t.prefCur = s.prefCur
  ready : t.prefInit = s.prefInit
  effective : t.prefEff = s.prefEff
  results : t.inputs.nvOk = s.inputs.nvOk
  pending : t.resetPending = s.resetPending
  requests : t.requests = s.requests
  events : ∃ es, t.trace = s.trace ++ es ∧ ∀ e ∈ es, isNvAccess e = false

theorem LeavesLog.refl (s : State) : LeavesLog s s := ⟨rfl, rfl, rfl, rfl, rfl, rfl, rfl, [], by simp⟩

theorem LeavesLog.trans {s t u : State} (h : LeavesLog s t) (k : LeavesLog t u) : LeavesLog s u := by
  obtain ⟨es, htrace, hes⟩ := h.events
  obtain ⟨fs, ktrace, hfs⟩ := k.events
  refine ⟨k.sector.trans h.sector, k.cursor.trans h.cursor, k.ready.trans h.ready, k.effective.trans h.effective,
    k.results.trans h.results, k.pending.trans h.pending, k.requests.trans h.requests, es ++ fs, ?_, ?_⟩
  · rw [ktrace, htrace, List.append_assoc]
  · exact fun e he => (List.mem_append.1 he).elim (hes e) (hfs e)

/-! ### Events and draws -/

theorem emit_leavesLog {es : List Event} (s : State) (h : ∀ e ∈ es, isNvAccess e = false) : LeavesLog s (emit es s) :=
  ⟨rfl, rfl, rfl, rfl, rfl, rfl, rfl, es, rfl, h⟩

theorem withInputs_leavesLog {p : Inputs} (s : State) (h : p.nvOk = s.inputs.nvOk) : LeavesLog s (withInputs p s) :=
  ⟨rfl, rfl, rfl, rfl, h, rfl, rfl, [], by simp⟩

@[simp] theorem nextReading_nvOk (ch : Channel) (p : Inputs) : (nextReading ch p).2.nvOk = p.nvOk := by
  cases ch <;> unfold nextReading <;> dsimp only <;> split <;> rfl

@[simp] theorem nextLevel_nvOk (sw : SwitchId) (p : Inputs) : (nextLevel sw p).2.nvOk = p.nvOk := by
  cases sw <;> unfold nextLevel <;> dsimp only <;> split <;> rfl

theorem adcRead_leavesLog {ch : Channel} {s t : State} {b : Byte} (h : adcRead ch s = .ok (b, t)) : LeavesLog s t := by
  obtain ⟨-, rfl⟩ := adcRead_eq_ok.1 h
  exact (withInputs_leavesLog s (nextReading_nvOk ch _)).trans (emit_leavesLog _ (by simp [isNvAccess]))

theorem adcReads_leavesLog {ch : Channel} {n : Nat} {s t : State} {bs : List Byte} (h : adcReads ch n s = .ok (bs, t)) :
    LeavesLog s t := by
  induction n generalizing s bs with
  | zero =>
    cases h
    exact LeavesLog.refl t
  | succ n ih =>
    rw [adcReads] at h
    split at h
    next => cases h
    next b s1 hread =>
      split at h
      next => cases h
      next cs s2 hreads =>
        cases h
        exact (adcRead_leavesLog hread).trans (ih hreads)

/-! ### The operations -/

theorem frameEvents_not_nv (d : Bool) (w : Word) : ∀ e ∈ frameEvents d w, isNvAccess e = false := by
  simp [frameEvents, bitEvents, isNvAccess]

theorem stepSet_leavesLog (level : Byte) (s : State) : LeavesLog s (stepSet level s) := by
  rw [stepSet_eq]
  refine ⟨rfl, rfl, rfl, rfl, rfl, rfl, rfl, frameEvents s.attData (0x00#8 ++ level) ++ [.att level], ?_, ?_⟩
  · exact List.append_assoc _ _ _
  · exact fun e he => (List.mem_append.1 he).elim (frameEvents_not_nv _ _ e) fun hatt => by
      rw [List.mem_singleton.1 hatt]
      rfl

theorem sendFrames_leavesLog (first : Bool) (ls : List Nat) (s : State) : LeavesLog s (sendFrames first ls s) := by
  induction ls generalizing first s with
  | nil => exact LeavesLog.refl s
  | cons l ls ih =>
    rw [sendFrames]
    refine LeavesLog.trans ?_ (ih false _)
    refine LeavesLog.trans ?_ (stepSet_leavesLog _ _)
    split
    · exact LeavesLog.refl s
    · exact emit_leavesLog s (by simp [isNvAccess])

theorem sendUpdate_leavesLog (force : Bool) (goal : Nat) (s : State) : LeavesLog s (sendUpdate force goal s) := by
  unfold sendUpdate
  split
  · exact stepSet_leavesLog _ s
  · exact sendFrames_leavesLog _ _ s

theorem rvcUpdate_leavesLog {force : Bool} {s t : State} (h : rvcUpdate force s = .next t) : LeavesLog s t := by
  obtain ⟨raw, s1, hread, rfl⟩ := rvcUpdate_eq_next.1 h
  have hsent := (adcRead_leavesLog hread).trans (sendUpdate_leavesLog force (target raw s1.rvcMode) s1)
  exact { hsent with }

theorem vuSample_leavesLog {s t : State} (h : vuSample s = .next t) : LeavesLog s t := by
  obtain ⟨bs, s1, hreads, rfl⟩ := vuSample_eq_next.1 h
  exact { adcReads_leavesLog hreads with }

theorem batSample_leavesLog {s t : State} (h : batSample s = .next t) : LeavesLog s t := by
  obtain ⟨b, s1, hread, rfl⟩ := batSample_eq_next.1 h
  exact { adcRead_leavesLog hread with }

theorem pwm_not_nv (c : Rgb) : ∀ e ∈ [Event.pwm c], isNvAccess e = false := by simp [isNvAccess]

theorem render_leavesLog {s t : State} (h : render s = .next t) : LeavesLog s t := by
  unfold render at h
  split at h
  · obtain ⟨o, k, i, c, hstep⟩ := overrideStep_frame s
    cases h
    rw [hstep]
    exact ⟨rfl, rfl, rfl, rfl, rfl, rfl, rfl, _, rfl, pwm_not_nv c⟩
  · split at h
    · cases h
    · cases h
      rcases renderNormal_cases _ s with hshow | ⟨c, hshow⟩ | hshow <;> rw [hshow]
      · exact LeavesLog.refl s
      · exact ⟨rfl, rfl, rfl, rfl, rfl, rfl, rfl, _, rfl, pwm_not_nv c⟩
      · exact ⟨rfl, rfl, rfl, rfl, rfl, rfl, rfl, _, rfl, pwm_not_nv _⟩

theorem setSwitchRegs_leavesLog (sw : SwitchId) (r : SwitchRegs) (s : State) : LeavesLog s (setSwitchRegs sw r s) := by
  cases sw <;> exact ⟨rfl, rfl, rfl, rfl, rfl, rfl, rfl, [], by simp⟩

/-! ### DEBOUNCE -/

/-- The state after a sample, before the handler runs if one does. -/
def sampled (sw : SwitchId) (r : SwitchRegs) (es : List Event) (s : State) : State :=
  setSwitchRegs sw r (emit es (withInputs (nextLevel sw s.inputs).2 s))

/-- DEBOUNCE samples, and then runs the handler of a release only where it reports one; the handler of a press does nothing (R180, R185). -/
theorem debounce_eq_switchEvent (sw : SwitchId) (s : State) :
    ∃ e r es, debounce sw s = switchEvent sw e (sampled sw r es s) ∧ (e = .release → Event.ev sw .release ∈ es) ∧
      ∀ x ∈ es, isNvAccess x = false := by
  by_cases heq : (nextLevel sw s.inputs).1 = (switchRegs sw s).deb
  · exact ⟨.press, _, _, debounce_of_eq heq, nofun, by simp [isNvAccess]⟩
  · by_cases hcnt : (switchRegs sw s).cnt.toNat = 4
    · rw [debounce_of_fifth heq hcnt, pinRead_snd, emit_emit]
      exact ⟨_, _, _, rfl, fun h => by simp [h], by simp [isNvAccess]⟩
    · exact ⟨.press, _, _, debounce_of_ne heq hcnt, nofun, by simp [isNvAccess]⟩

theorem sampled_leavesLog {sw : SwitchId} {r : SwitchRegs} {es : List Event} (s : State)
    (hes : ∀ x ∈ es, isNvAccess x = false) : LeavesLog s (sampled sw r es s) :=
  ((withInputs_leavesLog s (nextLevel_nvOk sw _)).trans (emit_leavesLog _ hes)).trans (setSwitchRegs_leavesLog sw r _)

@[simp] theorem sampled_trace (sw : SwitchId) (r : SwitchRegs) (es : List Event) (s : State) :
    (sampled sw r es s).trace = s.trace ++ es := by simp [sampled]

/-! ### TICK, part by part -/

/-- The instruction is of a kind that TICK runs (R160). -/
def isTickPart : Instr → Bool
  | .debounce _ | .rvcupd _ | .vusamp | .render | .batsamp => true
  | _ => false

/-- A property of the state once TC is counted, which the parts of TICK keep, holds of the state TICK leaves (R160). -/
theorem tickOp_keeps {P : State → Prop} {s t : State}
    (hparts : ∀ i u v, isTickPart i = true → exec i u = .next v → P u → P v) (h : tickOp s = .next t)
    (hcounted : P { s with tc := BitVec.ofNat 7 (tickCount s) }) : P t := by
  obtain ⟨u, hu, ht⟩ := tickOp_eq_next.1 h
  have hswitches := hparts (.debounce .sw1) _ _ rfl rfl (hparts (.debounce .sw0) _ _ rfl rfl hcounted)
  have hgroup : P u := by
    split at hu
    · obtain ⟨v, w, hrvc, hvu, hrender⟩ := fifthTick_eq_next.1 hu
      have hupdated : P v := hparts (.rvcupd false) _ _ rfl hrvc hswitches
      have hsampled : P w := by
        split at hvu
        · exact hparts .vusamp _ _ rfl hvu hupdated
        · cases hvu
          exact hupdated
      exact hparts .render _ _ rfl hrender hsampled
    · cases hu
      exact hswitches
  split at ht
  · exact hparts .batsamp _ _ rfl ht hgroup
  · cases ht
    exact hgroup

/-! ### Relations that hold across an instruction -/

/-- A relation between the states before and after operations run in sequence, that every operation which leaves the log alone keeps, and
the handler of a release that was committed. -/
structure KeptInSequence (R : State → State → Prop) : Prop where
  trans : ∀ {s t u}, R s t → R t u → R s u
  leaves : ∀ {s t}, LeavesLog s t → R s t
  commit : ∀ {s t sw es}, LeavesLog s t → t.trace = s.trace ++ es → Event.ev sw .release ∈ es →
    R s (switchEvent sw .release t)

section
variable {R : State → State → Prop} (h : KeptInSequence R)
include h

theorem KeptInSequence.debounce (sw : SwitchId) (s : State) : R s (Machine.debounce sw s) := by
  obtain ⟨e, r, es, heq, hrelease, hes⟩ := debounce_eq_switchEvent sw s
  rw [heq]
  cases e with
  | press => exact h.leaves (sampled_leavesLog s hes)
  | release => exact h.commit (sampled_leavesLog s hes) (sampled_trace sw r es s) (hrelease rfl)

/-- The relation holds across every instruction of a kind that TICK runs. -/
theorem KeptInSequence.tickPart {i : Instr} {s t : State} (hi : isTickPart i = true) (he : Machine.exec i s = .next t) :
    R s t := by
  cases i with
  | debounce sw => cases he; exact h.debounce sw s
  | rvcupd force => exact h.leaves (rvcUpdate_leavesLog he)
  | vusamp => exact h.leaves (vuSample_leavesLog he)
  | render => exact h.leaves (render_leavesLog he)
  | batsamp => exact h.leaves (batSample_leavesLog he)
  | _ => cases hi

theorem KeptInSequence.tickOp {s t : State} (he : Machine.tickOp s = .next t) : R s t :=
  tickOp_keeps (P := R s) (fun _ _ _ hi hpart hu => h.trans hu (h.tickPart hi hpart)) he
    (h.leaves { LeavesLog.refl s with })

/-- The relation holds across every instruction that is no preference operation and no release handler. -/
theorem KeptInSequence.exec {i : Instr} {s t : State} (he : Machine.exec i s = .next t) (hinit : i ≠ .prefinit)
    (hread : i ≠ .prefread) (hwrite : ∀ r, i ≠ .prefwrite r) (hrelease : ∀ sw, i ≠ .swevt sw .release) : R s t := by
  cases i with
  | nop => cases he; exact h.leaves (LeavesLog.refl s)
  | tick => exact h.tickOp he
  | debounce _ | rvcupd _ | vusamp | render | batsamp => exact h.tickPart rfl he
  | swevt sw e =>
    cases e with
    | press => cases he; exact h.leaves (LeavesLog.refl s)
    | release => exact absurd rfl (hrelease sw)
  | stepset level => cases he; exact h.leaves (stepSet_leavesLog level s)
  | ovrstart n => cases he; exact h.leaves { LeavesLog.refl s with }
  | prefinit => exact absurd rfl hinit
  | prefread => exact absurd rfl hread
  | prefwrite r => exact absurd rfl (hwrite r)

end

/-! ### What every instruction leaves of the model's own fields -/

/-- The reset flag and the requests stay, and the trace only grows (log entries 2, 14 and 18). -/
def OwnFieldsKept (s t : State) : Prop :=
  t.resetPending = s.resetPending ∧ t.requests = s.requests ∧ ∃ es, t.trace = s.trace ++ es

theorem OwnFieldsKept.trans {s t u : State} (h : OwnFieldsKept s t) (k : OwnFieldsKept t u) : OwnFieldsKept s u := by
  obtain ⟨hpend, hreq, es, htrace⟩ := h
  obtain ⟨kpend, kreq, fs, ktrace⟩ := k
  exact ⟨kpend.trans hpend, kreq.trans hreq, es ++ fs, by rw [ktrace, htrace, List.append_assoc]⟩

theorem LeavesLog.ownFieldsKept {s t : State} (h : LeavesLog s t) : OwnFieldsKept s t := by
  obtain ⟨es, htrace, -⟩ := h.events
  exact ⟨h.pending, h.requests, es, htrace⟩

theorem PrefOnly.ownFieldsKept {s t : State} (h : PrefOnly s t) : OwnFieldsKept s t := by
  obtain ⟨_, _, _, _, _, es, -, rfl⟩ := h
  exact ⟨rfl, rfl, es, rfl⟩

theorem switchEvent_ownFieldsKept (sw : SwitchId) (e : Edge) (s : State) : OwnFieldsKept s (switchEvent sw e s) := by
  obtain ⟨_, _, _, _, _, _, _, hevent⟩ := switchEvent_frame sw e s
  exact hevent.ownFieldsKept

theorem ownFieldsKept_keptInSequence : KeptInSequence OwnFieldsKept where
  trans := OwnFieldsKept.trans
  leaves := LeavesLog.ownFieldsKept
  commit hleaves _ _ := hleaves.ownFieldsKept.trans (switchEvent_ownFieldsKept _ _ _)

/-- The instruction is PREFINIT, PREFREAD or PREFWRITE. -/
def isPreferenceOp : Instr → Bool
  | .prefinit | .prefread | .prefwrite _ => true
  | _ => false

theorem exec_prefOnly {i : Instr} {s t : State} (hi : isPreferenceOp i = true) (h : exec i s = .next t) : PrefOnly s t := by
  cases i with
  | prefinit => cases h; exact prefInitialise_prefOnly s
  | prefread => cases h; exact prefRead_prefOnly s
  | prefwrite r => cases h; exact prefWrite_prefOnly r s
  | _ => cases hi

theorem exec_ownFieldsKept {i : Instr} {s t : State} (h : exec i s = .next t) : OwnFieldsKept s t := by
  cases i with
  | prefinit | prefread | prefwrite r => exact (exec_prefOnly rfl h).ownFieldsKept
  | swevt sw e => cases h; exact switchEvent_ownFieldsKept sw e s
  | _ => exact ownFieldsKept_keptInSequence.exec h nofun nofun nofun nofun

/-! ### Only preference operations and committed releases reach the sector -/

/-- A release was committed between `s` and `t`. -/
def Commits (s t : State) : Prop := ∃ es, t.trace = s.trace ++ es ∧ ∃ sw, Event.ev sw .release ∈ es

theorem Commits.of_trace {s t u : State} {fs : List Event} (h : Commits s t) (hu : u.trace = t.trace ++ fs) : Commits s u := by
  obtain ⟨es, htrace, sw, hmem⟩ := h
  exact ⟨es ++ fs, by rw [hu, htrace, List.append_assoc], sw, List.mem_append_left fs hmem⟩

theorem Commits.after {s t u : State} {fs : List Event} (hs : t.trace = s.trace ++ fs) (h : Commits t u) : Commits s u := by
  obtain ⟨es, htrace, sw, hmem⟩ := h
  exact ⟨fs ++ es, by rw [htrace, hs, List.append_assoc], sw, List.mem_append_right fs hmem⟩

theorem leavesLog_or_commits : KeptInSequence fun s t => LeavesLog s t ∨ Commits s t where
  trans := by
    rintro s t u (hst | hst) (htu | htu)
    · exact .inl (hst.trans htu)
    · obtain ⟨fs, htrace, -⟩ := hst.events
      exact .inr (htu.after htrace)
    · obtain ⟨fs, htrace, -⟩ := htu.events
      exact .inr (hst.of_trace htrace)
    · obtain ⟨fs, htrace, -⟩ := htu
      exact .inr (hst.of_trace htrace)
  leaves := .inl
  commit := by
    intro s t sw es _ htrace hmem
    obtain ⟨-, -, fs, hevent⟩ := switchEvent_ownFieldsKept sw .release t
    exact .inr (Commits.of_trace ⟨es, htrace, sw, hmem⟩ hevent)

/-- Settles O48: across such an instruction the log is left alone, or a release was committed, whose event the trace shows. -/
theorem onlyPreferenceOpsReachSector : Obligations.OnlyPreferenceOpsReachSector := by
  intro i s t es hexec htrace hinit hread hwrite hrelease hnone
  rcases leavesLog_or_commits.exec hexec hinit hread hwrite hrelease with hleaves | ⟨fs, hcommit, sw, hmem⟩
  · obtain ⟨fs, hevents, hfs⟩ := hleaves.events
    obtain rfl : es = fs := List.append_cancel_left (htrace.symm.trans hevents)
    exact ⟨hleaves.sector, hleaves.cursor, hleaves.ready, hleaves.effective, hleaves.results, hfs⟩
  · obtain rfl : es = fs := List.append_cancel_left (htrace.symm.trans hcommit)
    exact absurd hmem (hnone sw)

end Sys2Proof.Machine
end

section
/-! SUPPORT. Which registers an instruction writes (R31, R58): one frame for each operation, and the tick count, which the operations TICK
runs leave alone (R164). -/

namespace Sys2Proof.Machine

section
variable {s t : State}

/-! ### Frames of the sampling operations -/

theorem rvcUpdate_frame {force : Bool} (h : rvcUpdate force s = .next t) :
    ∃ prev cur k d l dev inp es, t =
      { s with
        attPrev := prev, attCur := cur, attClk := k, attData := d, attLoad := l, device := dev
        inputs := inp, trace := s.trace ++ es } := by
  obtain ⟨raw, s1, hread, rfl⟩ := rvcUpdate_eq_next.1 h
  obtain ⟨-, rfl⟩ := adcRead_eq_ok.1 hread
  obtain ⟨cur, k, d, l, dev, es, hsent⟩ := sendUpdate_frame force (target raw s.rvcMode)
    (emit [.adc .rvc raw] (withInputs (nextReading .rvc s.inputs).2 s))
  refine ⟨BitVec.ofNat 7 (target raw s.rvcMode), cur, k, d, l, dev, (nextReading .rvc s.inputs).2,
    [.adc .rvc raw] ++ es, (congrArg (setAttPrev (target raw s.rvcMode)) hsent).trans ?_⟩
  simp [setAttPrev, emit, withInputs]

theorem vuSample_frame (h : vuSample s = .next t) :
    ∃ win wp v inp es, t =
      { s with vuWin := win, vuWp := wp, vuState := v, inputs := inp, trace := s.trace ++ es } := by
  obtain ⟨bs, s1, hreads, rfl⟩ := vuSample_eq_next.1 h
  obtain ⟨-, hs1⟩ := adcReads_ok hreads
  rw [hs1]
  exact ⟨_, _, _, _, _, rfl⟩

theorem batSample_frame (h : batSample s = .next t) :
    ∃ b inp es, t = { s with batt := some b, inputs := inp, trace := s.trace ++ es } := by
  obtain ⟨b, s1, hread, rfl⟩ := batSample_eq_next.1 h
  obtain ⟨-, rfl⟩ := adcRead_eq_ok.1 hread
  exact ⟨_, _, _, rfl⟩

end

/-! ### Frames of the switches -/

/-- The mode switch's handler writes LEDMODE and VU_STATE, and persists (R183). -/
theorem switchEvent_sw0_frame (e : Edge) (s : State) :
    ∃ led vu, PrefOnly { s with ledMode := led, vuState := vu } (switchEvent .sw0 e s) := by
  cases e with
  | press => exact ⟨_, _, PrefOnly.refl s⟩
  | release =>
    rw [switchEvent_release_sw0]
    exact ⟨_, _, persistModes_prefOnly (advanceMode s)⟩

/-- The curve switch's handler writes RVCMODE and the override registers, and persists (R184). -/
theorem switchEvent_sw1_frame (e : Edge) (s : State) :
    ∃ rvc o k i n, PrefOnly
      { s with rvcMode := rvc, ovrState := o, ovrCnt := k, ovrIdx := i, ovrN := n } (switchEvent .sw1 e s) := by
  cases e with
  | press => exact ⟨_, _, _, _, _, PrefOnly.refl s⟩
  | release =>
    rw [switchEvent_release_sw1]
    exact ⟨_, _, _, _, _, persistModes_prefOnly (toggleCurve s)⟩

theorem debounce_sw0_frame (s : State) :
    ∃ r led vu inp es, PrefOnly
      { s with sw0 := r, ledMode := led, vuState := vu, inputs := inp, trace := s.trace ++ es } (debounce .sw0 s) := by
  obtain ⟨e, r, es, heq, -⟩ := debounce_eq_switchEvent .sw0 s
  obtain ⟨led, vu, hevent⟩ := switchEvent_sw0_frame e (sampled .sw0 r es s)
  rw [heq]
  exact ⟨r, led, vu, _, es, hevent⟩

theorem debounce_sw1_frame (s : State) :
    ∃ r rvc o k i n inp es, PrefOnly
      { s with
        sw1 := r, rvcMode := rvc, ovrState := o, ovrCnt := k, ovrIdx := i, ovrN := n
        inputs := inp, trace := s.trace ++ es } (debounce .sw1 s) := by
  obtain ⟨e, r, es, heq, -⟩ := debounce_eq_switchEvent .sw1 s
  obtain ⟨rvc, o, k, i, n, hevent⟩ := switchEvent_sw1_frame e (sampled .sw1 r es s)
  rw [heq]
  exact ⟨r, rvc, o, k, i, n, _, es, hevent⟩

@[simp] theorem switchEvent_press (sw : SwitchId) (s : State) : switchEvent sw .press s = s := rfl

/-- Settles O47: an instruction's frame names the registers it may write. -/
theorem registersWrittenOnlyByNamed : Obligations.RegistersWrittenOnlyByNamed := by
  intro i s t h
  cases i with
  | tick =>
    obtain ⟨hpend, hreq, htrace⟩ := exec_ownFieldsKept h
    simp [hpend, hreq, htrace]
  | nop => cases h; simp
  | debounce sw =>
    cases h
    cases sw with
    | sw0 =>
      obtain ⟨_, _, _, _, _, _, _, _, _, _, _, -, hframe⟩ := debounce_sw0_frame s
      simp [hframe]
    | sw1 =>
      obtain ⟨_, _, _, _, _, _, _, _, _, _, _, _, _, _, -, hframe⟩ := debounce_sw1_frame s
      simp [hframe]
  | swevt sw e =>
    cases h
    cases e with
    | press => simp
    | release =>
      cases sw with
      | sw0 =>
        obtain ⟨_, _, _, _, _, _, _, _, -, hframe⟩ := switchEvent_sw0_frame .release s
        simp [hframe]
      | sw1 =>
        obtain ⟨_, _, _, _, _, _, _, _, _, _, _, -, hframe⟩ := switchEvent_sw1_frame .release s
        simp [hframe]
  | rvcupd force =>
    obtain ⟨_, _, _, _, _, _, _, _, rfl⟩ := rvcUpdate_frame h
    simp
  | stepset level =>
    cases h
    simp [stepSet_eq]
  | vusamp =>
    obtain ⟨_, _, _, _, _, rfl⟩ := vuSample_frame h
    simp
  | render =>
    obtain ⟨_, _, _, _, _, _, _, rfl⟩ := render_frame h
    simp
  | batsamp =>
    obtain ⟨_, _, _, rfl⟩ := batSample_frame h
    simp
  | ovrstart n => cases h; simp
  | prefinit | prefread | prefwrite record =>
    obtain ⟨_, _, _, _, _, _, -, rfl⟩ := exec_prefOnly rfl h
    simp

/-! ### The tick count -/

/-- TC is TICK's alone (R34). -/
theorem exec_tc {i : Instr} {s t : State} (hi : i ≠ .tick) (h : exec i s = .next t) : t.tc = s.tc :=
  (registersWrittenOnlyByNamed i s t h).1 hi

/-- TICK counts TC before anything else, and nothing else in it writes TC (R160). -/
theorem tickOp_tc {s t : State} (h : tickOp s = .next t) : t.tc = BitVec.ofNat 7 (tickCount s) := by
  refine tickOp_keeps (P := fun u => u.tc = BitVec.ofNat 7 (tickCount s)) (fun i u v hi hpart hu => ?_) h rfl
  rw [exec_tc (by rintro rfl; cases hi) hpart, hu]

theorem tickCount_eq (s : State) : tickCount s = (s.tc.toNat + 1) % 100 := rfl

theorem tickOp_tc_toNat {s t : State} (h : tickOp s = .next t) : t.tc.toNat = (s.tc.toNat + 1) % 100 := by
  rw [tickOp_tc h, tickCount_eq, BitVec.toNat_ofNat]
  omega

theorem execTimes_tick_tc {k : Nat} {s t : State} (h : execTimes .tick k s = .next t) (hs : s.tc.toNat < 100) :
    t.tc.toNat = (s.tc.toNat + k) % 100 := by
  induction k generalizing s with
  | zero =>
    cases h
    exact (Nat.mod_eq_of_lt hs).symm
  | succ k ih =>
    obtain ⟨u, hu, ht⟩ := andThen_eq_next.1 h
    have htick := tickOp_tc_toNat hu
    rw [ih ht (by omega), htick]
    omega

/-- Settles O15. -/
theorem tickCountAfterTicks : Obligations.TickCountAfterTicks := by
  intro k s t hzero h
  rw [execTimes_tick_tc h (by simp [hzero]), hzero, BitVec.toNat_ofNat, Nat.zero_mod, Nat.zero_add]

end Sys2Proof.Machine
end

section
/-! SUPPORT. The preference log through a run (R305): every operation that records no error condition, PREFINIT apart, leaves a consistent log. -/

namespace Sys2Proof.Machine

/-- The log is consistent and its sector in canonical form. -/
structure GoodLog (s : State) : Prop where
  log : LogInvariant s
  canonical : Memory.wf s.sector = true

/-- From `s` to `t` the trace grew, and where it grew by no error condition a consistent log stayed consistent. -/
def KeepsLog (s t : State) : Prop :=
  ∃ es, t.trace = s.trace ++ es ∧ ((∀ e ∈ es, isError e = false) → GoodLog s → GoodLog t)

theorem KeepsLog.trans {s t u : State} (h : KeepsLog s t) (k : KeepsLog t u) : KeepsLog s u := by
  obtain ⟨es, htrace, hgood⟩ := h
  obtain ⟨fs, ktrace, kgood⟩ := k
  refine ⟨es ++ fs, by rw [ktrace, htrace, List.append_assoc], fun hnone hs => ?_⟩
  exact kgood (fun e he => hnone e (List.mem_append_right es he))
    (hgood (fun e he => hnone e (List.mem_append_left fs he)) hs)

/-- A state that differs in neither the sector nor the preference registers has the same log. -/
theorem GoodLog.of_eq {s t : State} (h : GoodLog s) (hsec : t.sector = s.sector) (hcur : t.prefCur = s.prefCur)
    (hinit : t.prefInit = s.prefInit) (heff : t.prefEff = s.prefEff) : GoodLog t :=
  ⟨h.log.of_eq hsec hcur hinit heff, by rw [hsec]; exact h.canonical⟩

theorem LeavesLog.keepsLog {s t : State} (h : LeavesLog s t) : KeepsLog s t := by
  obtain ⟨es, htrace, -⟩ := h.events
  exact ⟨es, htrace, fun _ hs => hs.of_eq h.sector h.cursor h.ready h.effective⟩

/-! ### PREFREAD -/

/-- A scan from above the end of a log leaves it known, or PREF_INIT clear where a read failed (R302, R306). -/
theorem prefScan_logInvariant {n k : Nat} {s : State} (hn : n ≤ 512) (hk : k ≤ n) (h : LogShape s.sector k) :
    LogInvariant (prefScan n s).2 := by
  induction n generalizing s with
  | zero =>
    obtain rfl : k = 0 := by omega
    exact KnownLog.logInvariant ⟨h, rfl, rfl⟩
  | succ n ih =>
    cases hok : (nextOk s.inputs).1 with
    | false =>
      rw [prefScan_succ_fail hok]
      exact logInvariant_of_unready h rfl
    | true =>
      rcases Nat.lt_or_eq_of_le hk with hlt | rfl
      · rw [prefScan_succ_skip hn hok (h.not_record (by omega) hn)]
        exact ih (by omega) (by omega) h
      · obtain ⟨-, hlast, hrec, -⟩ := h.newest
        rw [prefScan_succ_record hn hok hlast hrec]
        exact KnownLog.logInvariant ⟨h, by rw [prefFound_prefCur, BitVec.toNat_ofNat]; omega, rfl⟩

@[simp] theorem prefScan_sector (n : Nat) (s : State) : (prefScan n s).2.sector = s.sector := by
  induction n generalizing s with
  | zero => rfl
  | succ n ih =>
    unfold prefScan
    dsimp only
    split
    · rfl
    · split
      · rfl
      · exact ih _

@[simp] theorem prefRead_sector (s : State) : (prefRead s).2.sector = s.sector := prefScan_sector _ s

theorem keepsLog_of_good {s t : State} (h : PrefOnly s t) (hgood : GoodLog s → GoodLog t) : KeepsLog s t := by
  obtain ⟨-, -, es, htrace⟩ := h.ownFieldsKept
  exact ⟨es, htrace, fun _ => hgood⟩

/-- PREFREAD leaves a consistent log, whether its reads succeed or not. -/
theorem prefRead_keepsLog (s : State) : KeepsLog s (prefRead s).2 := by
  refine keepsLog_of_good (prefRead_prefOnly s) fun ⟨⟨k, hshape, _⟩, hwf⟩ => ⟨?_, by rwa [prefRead_sector]⟩
  have ⟨hk, _, _⟩ := hshape
  exact prefScan_logInvariant le_rfl hk hshape

/-! ### PREFWRITE -/

/-- An error condition was recorded between `s` and `t`. -/
def RecordsError (s t : State) : Prop := ∃ es c, t.trace = s.trace ++ es ∧ Event.err c ∈ es

theorem RecordsError.after {s t u : State} {fs : List Event} (hs : t.trace = s.trace ++ fs) (h : RecordsError t u) :
    RecordsError s u := by
  obtain ⟨es, c, htrace, hmem⟩ := h
  exact ⟨fs ++ es, c, by rw [htrace, hs, List.append_assoc], List.mem_append_right fs hmem⟩

theorem keepsLog_of_good_or_error {s t : State} (h : PrefOnly s t) (hcases : GoodLog t ∨ RecordsError s t) : KeepsLog s t := by
  rcases hcases with hgood | ⟨es, c, htrace, hmem⟩
  · exact keepsLog_of_good h fun _ => hgood
  · exact ⟨es, htrace, fun hnone => absurd (hnone _ hmem) (by simp [isError])⟩

section
variable {k : Nat} {c : Byte} {s : State}

/-- The append succeeds and lengthens the log, or it fails and records an error (R303, R306). -/
theorem AtEnd.append_good_or_error (h : AtEnd k s) (hc : isRecord c = true) :
    GoodLog (prefAppend c s).2 ∨ RecordsError s (prefAppend c s).2 := by
  have hroom : s.prefCur.toNat < 512 := h.cursor.trans_lt h.room
  cases hok : (nextOk s.inputs).1 with
  | true =>
    rw [h.append_of_ok hok]
    exact .inl ⟨(h.known_appended hc).logInvariant, Memory.wf_set _ h.canonical hroom⟩
  | false =>
    rw [prefAppend_of_fail hroom hok]
    exact .inr ⟨_, .nvWriteFail (BitVec.ofNat 9 s.prefCur.toNat), rfl, by simp⟩

/-- The commit leaves a log with the record in it, or records the error of its access that failed. -/
theorem KnownLog.commit_good_or_error (h : KnownLog k s) (hwf : Memory.wf s.sector = true) (hc : isRecord c = true)
    (hne : c ≠ s.prefEff) : GoodLog (prefCommit c s).2 ∨ RecordsError s (prefCommit c s).2 := by
  rcases h.commit hwf hne with ⟨hend, hcommit⟩ | ⟨hfull, hcommit⟩
  · rw [hcommit]
    exact hend.append_good_or_error hc
  · cases hok : (nextOk s.inputs).1 with
    | true =>
      rw [hcommit hok]
      exact ((erasedForAppend_atEnd s).append_good_or_error hc).imp_right (RecordsError.after (fs := [.nve true]) rfl)
    | false =>
      rw [prefCommit_of_erase_fail hne hfull hok]
      exact .inr ⟨_, .nvEraseFail, rfl, by simp⟩

theorem prefCommit_keepsLog (hinit : s.prefInit = true) (hc : isRecord c = true) : KeepsLog s (prefCommit c s).2 := by
  by_cases heff : c = s.prefEff
  · rw [prefCommit_of_effective heff]
    exact (LeavesLog.refl s).keepsLog
  · by_cases hgood : GoodLog s
    · obtain ⟨k, hknown⟩ := hgood.log.known hinit
      exact keepsLog_of_good_or_error (prefCommit_prefOnly c s) (hknown.commit_good_or_error hgood.canonical hc heff)
    · exact keepsLog_of_good (prefCommit_prefOnly c s) fun h => absurd h hgood

theorem prefWrite_keepsLog (r : Byte) (s : State) : KeepsLog s (prefWrite r s).2 := by
  cases hinit : s.prefInit with
  | true =>
    rw [prefWrite_of_ready r hinit]
    exact prefCommit_keepsLog hinit (isRecord_candidate r)
  | false =>
    rw [prefWrite_of_unready r hinit]
    split
    next hread => exact (prefRead_keepsLog s).trans (prefCommit_keepsLog hread (isRecord_candidate r))
    next => exact prefRead_keepsLog s

end

/-! ### Every instruction and every step -/

/-- A handler of a release leaves the log alone until it persists the record (R183, R184). -/
theorem switchEvent_keepsLog (sw : SwitchId) (e : Edge) (s : State) : KeepsLog s (switchEvent sw e s) := by
  have hpersist : ∀ u, LeavesLog s u → KeepsLog s (persistModes u) := fun u hu =>
    hu.keepsLog.trans (prefWrite_keepsLog _ u)
  cases e with
  | press => exact (LeavesLog.refl s).keepsLog
  | release =>
    cases sw with
    | sw0 =>
      rw [switchEvent_release_sw0]
      exact hpersist (advanceMode s) { LeavesLog.refl s with }
    | sw1 =>
      rw [switchEvent_release_sw1]
      exact hpersist (toggleCurve s) { LeavesLog.refl s with }

theorem keepsLog_keptInSequence : KeptInSequence KeepsLog where
  trans := KeepsLog.trans
  leaves := LeavesLog.keepsLog
  commit hleaves _ _ := hleaves.keepsLog.trans (switchEvent_keepsLog _ _ _)

theorem exec_keepsLog {i : Instr} {s t : State} (hi : i ≠ .prefinit) (h : exec i s = .next t) : KeepsLog s t := by
  cases i with
  | prefinit => exact absurd rfl hi
  | prefread => cases h; exact prefRead_keepsLog s
  | prefwrite r => cases h; exact prefWrite_keepsLog r s
  | swevt sw e => cases h; exact switchEvent_keepsLog sw e s
  | _ => exact keepsLog_keptInSequence.exec h nofun nofun nofun nofun

/-- The reset sequence reaches the log through its PREFREAD alone (R361). -/
theorem resetSequence_keepsLog {s t : State} (h : resetSequence s = .next t) : KeepsLog s t := by
  obtain ⟨u, hbatt, hrvc⟩ := resetSequence_eq_next.1 h
  have hbegin : KeepsLog s { s with resetPending := false } := ⟨[], by simp, fun _ hs => hs.of_eq rfl rfl rfl rfl⟩
  have hrestore : ∀ (r : Option Byte) (v : State), KeepsLog v (restoreModes r v) := fun r v =>
    LeavesLog.keepsLog { LeavesLog.refl v with }
  exact hbegin.trans ((prefRead_keepsLog _).trans ((hrestore _ _).trans
    ((batSample_leavesLog hbatt).keepsLog.trans (rvcUpdate_leavesLog hrvc).keepsLog)))

/-- An operation starts with the log of the state before it and an empty trace. -/
theorem KeepsLog.of_beginOp {rest : List Request} {s t : State} (h : KeepsLog (beginOp rest s) t)
    (hnone : ∀ e ∈ t.trace, isError e = false) (hs : GoodLog s) : GoodLog t := by
  obtain ⟨es, htrace, hgood⟩ := h
  obtain rfl : t.trace = es := htrace
  exact hgood hnone (hs.of_eq rfl rfl rfl rfl)

/-- A word that decodes to PREFINIT is 0xA000 (R121). -/
theorem word_of_decode_prefinit {w : Word} (h : decode w = .ok .prefinit) : w = 0xA000#16 :=
  (acceptedWordIsEncoding w .prefinit h).2.symm

/-- Settles O57: what a step runs keeps the log, and the register reset clears PREF_INIT over the sector as it was. -/
theorem stepKeepsLogInvariant : Obligations.StepKeepsLogInvariant := by
  intro s t hlog hwf hword hstep hnone
  rcases step_cases hstep with ⟨rest, hreq, rfl⟩ | ⟨hpend, -, hrun⟩ | ⟨hpend, w, rest, i, hd, hexec, hreq⟩
  · obtain ⟨k, hshape, -⟩ := hlog
    exact logInvariant_of_unready hshape rfl
  · exact ((resetSequence_keepsLog hrun).of_beginOp hnone ⟨hlog, hwf⟩).log
  · have hi : i ≠ .prefinit := by
      rintro rfl
      rcases hreq with hreq | ⟨rfl, -⟩
      · rw [word_of_decode_prefinit hd] at hreq
        exact hword.elim (by simp [hpend]) fun hnot => hnot rest hreq
      · cases hd
    exact ((exec_keepsLog hi hexec).of_beginOp hnone ⟨hlog, hwf⟩).log

end Sys2Proof.Machine
end

section
/-! SUPPORT. Completion (R333, R336, R337): where the conversions complete and BATT holds a value, every operation answers a next state of
which the same holds; and along a run from reset no operation reads an empty BATT (R49, I17). -/

namespace Sys2Proof.Machine

/-- Every scripted conversion completes, and BATT holds a value. -/
structure Ready (s : State) : Prop where
  complete : ConversionsComplete s.inputs
  battery : s.batt ≠ none

/-- The operation answers a next state with the property. -/
def Answers (r : Result) (P : State → Prop) : Prop := ∃ t, r = .next t ∧ P t

theorem Answers.next {P : State → Prop} {s : State} (h : P s) : Answers (.next s) P := ⟨s, rfl, h⟩

theorem Answers.andThen {r : Result} {f : State → Result} {P Q : State → Prop} (hr : Answers r P)
    (hf : ∀ u, P u → Answers (f u) Q) : Answers (andThen r f) Q := by
  obtain ⟨u, rfl, hu⟩ := hr
  exact hf u hu

/-! ### The operations -/

theorem nextLevel_complete (sw : SwitchId) {p : Inputs} (h : ConversionsComplete p) :
    ConversionsComplete (nextLevel sw p).2 := by
  cases sw <;> unfold nextLevel <;> dsimp only <;> split <;> exact h

theorem adcRead_complete (ch : Channel) {s : State} (h : ConversionsComplete s.inputs) :
    ∃ b p, adcRead ch s = .ok (b, emit [.adc ch b] (withInputs p s)) ∧ ConversionsComplete p := by
  obtain ⟨⟨b, hb⟩, hrest⟩ := nextReading_complete ch h
  exact ⟨b, _, adcRead_eq_ok.2 ⟨hb, rfl⟩, hrest⟩

theorem readingsReady_complete (ch : Channel) (n : Nat) {p : Inputs} (h : ConversionsComplete p) :
    ∃ bs q, readingsReady ch n p = some (bs, q) ∧ ConversionsComplete q := by
  induction n generalizing p with
  | zero => exact ⟨[], p, rfl, h⟩
  | succ n ih =>
    obtain ⟨⟨b, hb⟩, hrest⟩ := nextReading_complete ch h
    obtain ⟨bs, q, hready, hq⟩ := ih hrest
    exact ⟨b :: bs, q, by rw [readingsReady, hb, hready], hq⟩

/-- BATSAMP gives BATT a value whatever it held (R290). -/
theorem batSample_answers {s : State} (h : ConversionsComplete s.inputs) : Answers (batSample s) Ready := by
  obtain ⟨b, p, hread, hp⟩ := adcRead_complete .batt h
  exact ⟨_, batSample_eq_next.2 ⟨b, _, hread, rfl⟩, hp, nofun⟩

theorem sendUpdate_inputs (force : Bool) (goal : Nat) (s : State) : (sendUpdate force goal s).inputs = s.inputs := by
  obtain ⟨_, _, _, _, _, _, hframe⟩ := sendUpdate_frame force goal s
  rw [hframe]

theorem rvcUpdate_answers (force : Bool) {s : State} (h : Ready s) : Answers (rvcUpdate force s) Ready := by
  obtain ⟨raw, p, hread, hp⟩ := adcRead_complete .rvc h.complete
  have hnext := (rvcUpdate_eq_next (force := force)).2 ⟨raw, _, hread, rfl⟩
  refine ⟨_, hnext, ?_, ?_⟩
  · rw [setAttPrev_inputs, sendUpdate_inputs]
    exact hp
  · rw [rvcUpdate_batt hnext]
    exact h.battery

theorem vuSample_answers {s : State} (h : Ready s) : Answers (vuSample s) Ready := by
  obtain ⟨bs, p, hready, hp⟩ := readingsReady_complete .audio 20 h.complete
  exact ⟨_, vuSample_of_ready hready, hp, h.battery⟩

theorem render_answers {s : State} (h : Ready s) : Answers (render s) Ready := by
  cases hr : render s with
  | next t =>
    obtain ⟨_, _, _, _, _, _, _, rfl⟩ := render_frame hr
    exact .next ⟨h.complete, h.battery⟩
  | fault e =>
    obtain ⟨-, hempty, -⟩ := render_eq_fault.1 hr
    exact absurd hempty h.battery
  | refused e => exact absurd hr (render_notRefused s e)

theorem PrefOnly.ready {s t : State} (ht : PrefOnly s t) (h : Ready s) : Ready t := by
  obtain ⟨_, _, _, _, _, _, hdraws, rfl⟩ := ht
  exact ⟨hdraws.complete h.complete, h.battery⟩

theorem switchEvent_ready (sw : SwitchId) (e : Edge) {s : State} (h : Ready s) : Ready (switchEvent sw e s) := by
  obtain ⟨_, _, _, _, _, _, _, hevent⟩ := switchEvent_frame sw e s
  exact hevent.ready ⟨h.complete, h.battery⟩

theorem debounce_ready (sw : SwitchId) {s : State} (h : Ready s) : Ready (debounce sw s) := by
  obtain ⟨e, r, es, heq, -⟩ := debounce_eq_switchEvent sw s
  rw [heq]
  refine switchEvent_ready sw e ⟨?_, ?_⟩
  · rw [sampled, setSwitchRegs_inputs]
    exact nextLevel_complete sw h.complete
  · rw [sampled, setSwitchRegs_batt]
    exact h.battery

theorem stepSet_ready (level : Byte) {s : State} (h : Ready s) : Ready (stepSet level s) := by
  rw [stepSet_eq]
  exact ⟨h.complete, h.battery⟩

theorem fifthTick_answers {s : State} (h : Ready s) : Answers (fifthTick s) Ready := by
  refine (rvcUpdate_answers false h).andThen fun u hu => Answers.andThen (P := Ready) ?_ fun v => render_answers
  split
  · exact vuSample_answers hu
  · exact .next hu

theorem tickOp_answers {s : State} (h : Ready s) : Answers (tickOp s) Ready := by
  have hcount : Ready { s with tc := BitVec.ofNat 7 (tickCount s) } := ⟨h.complete, h.battery⟩
  have hswitches := debounce_ready .sw1 (debounce_ready .sw0 hcount)
  refine Answers.andThen (P := Ready) ?_ fun u hu => ?_
  · split
    · exact fifthTick_answers hswitches
    · exact .next hswitches
  · split
    · exact batSample_answers hu.complete
    · exact .next hu

/-- Every instruction answers a next state that is ready for the next one. -/
theorem exec_answers (i : Instr) {s : State} (h : Ready s) : Answers (exec i s) Ready := by
  cases i with
  | nop => exact .next h
  | tick => exact tickOp_answers h
  | debounce sw => exact .next (debounce_ready sw h)
  | swevt sw e => exact .next (switchEvent_ready sw e h)
  | rvcupd force => exact rvcUpdate_answers force h
  | stepset level => exact .next (stepSet_ready level h)
  | vusamp => exact vuSample_answers h
  | render => exact render_answers h
  | batsamp => exact batSample_answers h.complete
  | ovrstart n => exact .next ⟨h.complete, h.battery⟩
  | prefinit => exact .next ((prefInitialise_prefOnly s).ready h)
  | prefread => exact .next ((prefRead_prefOnly s).ready h)
  | prefwrite record => exact .next ((prefWrite_prefOnly record s).ready h)

/-- Settles O49. -/
theorem everyInstructionCompletes : Obligations.EveryInstructionCompletes := by
  intro i s hcomplete hbatt
  obtain ⟨t, ht, -⟩ := exec_answers i ⟨hcomplete, hbatt⟩
  exact ⟨t, ht⟩

/-- Settles O14: the next state and its readiness, the tick count, and the model's own fields. -/
theorem tickCompletes : Obligations.TickCompletes := by
  intro s hcomplete hbatt
  obtain ⟨t, ht, hready⟩ := tickOp_answers ⟨hcomplete, hbatt⟩
  obtain ⟨hpend, hreq, es, htrace⟩ := exec_ownFieldsKept (i := .tick) ht
  exact ⟨t, es, ht, tickOp_tc ht, htrace, hreq, hpend, hready.battery, hready.complete⟩

/-! ### A run from reset -/

/-- The reset sequence gives BATT its value, whatever it held (R361). -/
theorem resetSequence_answers {s : State} (h : ConversionsComplete s.inputs) : Answers (resetSequence s) Ready := by
  obtain ⟨_, _, _, _, _, _, hdraws, hread⟩ := prefRead_prefOnly { s with resetPending := false }
  refine (batSample_answers ?_).andThen fun u => rvcUpdate_answers true
  rw [hread]
  exact hdraws.complete h

theorem resetSequence_batt {s t : State} (h : resetSequence s = .next t) : t.batt ≠ none := by
  obtain ⟨u, hbatt, hrvc⟩ := resetSequence_eq_next.1 h
  obtain ⟨b, _, _, rfl⟩ := batSample_frame hbatt
  rw [rvcUpdate_batt hrvc]
  nofun

theorem PrefOnly.batt {s t : State} (h : PrefOnly s t) : t.batt = s.batt := by
  obtain ⟨_, _, _, _, _, _, -, rfl⟩ := h
  rfl

/-- No operation empties BATT. -/
theorem batt_keptByParts : KeptByParts fun s => s.batt ≠ none where
  outside _ _ _ _ _ h := h
  count _ _ _ h := h
  switch s sw r _ h := by rwa [setSwitchRegs_batt]
  led _ _ h := h
  curve _ _ h := h
  vuState _ _ h := h
  frame s l h := by rwa [stepSet_eq]
  goal _ _ _ h := h
  sample _ _ h := h
  battery _ _ _ := nofun
  override _ _ _ h := h
  display s t hr h := by
    obtain ⟨_, _, _, _, _, _, _, rfl⟩ := render_frame hr
    exact h
  initialise s h := by rwa [(prefInitialise_prefOnly s).batt]
  scan s h := by rwa [(prefRead_prefOnly s).batt]
  append s r h := by rwa [(prefWrite_prefOnly r s).batt]

theorem step_battReady {s t : State} (hs : BattReady s) (h : step s = .next t) : BattReady t := by
  rcases step_cases h with ⟨rest, -, rfl⟩ | ⟨-, -, hrun⟩ | ⟨hpend, w, rest, i, hd, hexec, -⟩
  · exact .inl rfl
  · exact .inr (resetSequence_batt hrun)
  · have hbatt : s.batt ≠ none := hs.resolve_left (by simp [hpend])
    exact .inr (batt_keptByParts.exec (wellFormed_of_decode hd) hexec hbatt)

/-- What a step runs, whether that completes or not (`step_cases` tells the steps that complete): a register reset, the reset sequence, or,
with none pending, a command word that waited or the TICK word. -/
theorem step_eq_cases (s : State) :
    (∃ rest, s.requests = .rst :: rest ∧ step s = .next (registerReset (beginOp rest s))) ∨
    (step s = resetSequence (beginOp s.requests s)) ∨
    (s.resetPending = false ∧ ∃ w rest, step s = runCommand w (beginOp rest s) ∧ rest ⊆ s.requests ∧
      (.cmd w ∈ s.requests ∨ w = tickWord)) := by
  unfold step
  rcases takeRequest_cases s with ⟨rest, hreq, htake⟩ | ⟨-, -, htake⟩ | ⟨hpend, w, rest, htake, hreq⟩ <;> rw [htake]
  · exact .inl ⟨rest, hreq, rfl⟩
  · exact .inr (.inl rfl)
  · refine .inr (.inr ⟨hpend, w, rest, rfl, ?_⟩)
    rcases hreq with hreq | ⟨hw, hreq | ⟨hreq, hrest⟩⟩
    · rw [hreq]
      exact ⟨List.subset_cons_self _ _, .inl List.mem_cons_self⟩
    · rw [hreq]
      exact ⟨List.subset_cons_self _ _, .inr hw⟩
    · rw [hrest]
      exact ⟨List.nil_subset _, .inr hw⟩

theorem runCommand_eq_fault {w : Word} {s : State} {e : Fault} :
    runCommand w s = .fault e ↔ ∃ i, decode w = .ok i ∧ exec i s = .fault e := by
  unfold runCommand
  cases decode w <;> simp

/-- Settles O55: a word is run only once no reset sequence is pending, and then BATT holds a value. -/
theorem noBottomRead : Obligations.NoBottomRead := by
  intro s hs
  refine ⟨fun hfault => ?_, fun t => step_battReady hs⟩
  rcases step_eq_cases s with ⟨rest, -, hstep⟩ | hstep | ⟨hpend, w, rest, hstep, -⟩ <;> rw [hstep] at hfault
  · cases hfault
  · rcases resetSequence_eq_fault hfault with h | h <;> cases h
  · obtain ⟨i, -, hexec⟩ := runCommand_eq_fault.1 hfault
    have hempty : (beginOp rest s).batt = none := exec_battNoValue hexec
    exact hs.resolve_left (by simp [hpend]) hempty

theorem resetSequence_requests {s t : State} (h : resetSequence s = .next t) : t.requests = s.requests := by
  obtain ⟨u, hbatt, hrvc⟩ := resetSequence_eq_next.1 h
  obtain ⟨-, hread, -⟩ := (prefRead_prefOnly { s with resetPending := false }).ownFieldsKept
  rw [(rvcUpdate_leavesLog hrvc).requests, (batSample_leavesLog hbatt).requests]
  exact hread

/-- A step takes a request or leaves them all; it adds none. -/
theorem step_requests_subset {s t : State} (h : step s = .next t) : t.requests ⊆ s.requests := by
  rcases step_eq_cases s with ⟨rest, hreq, hstep⟩ | hstep | ⟨-, w, rest, hstep, hrest, -⟩ <;> rw [hstep] at h
  · cases h
    rw [hreq]
    exact List.subset_cons_self _ _
  · rw [resetSequence_requests h]
    exact List.Subset.refl _
  · obtain ⟨i, -, hexec⟩ := runCommand_eq_next.1 h
    obtain ⟨-, hreq, -⟩ := exec_ownFieldsKept hexec
    rw [hreq]
    exact hrest

/-- The step completes, and leaves conversions that complete. -/
theorem step_answers {s : State} (hs : BattReady s) (hwords : NoReservedWords s) (hcomplete : ConversionsComplete s.inputs) :
    Answers (step s) fun t => ConversionsComplete t.inputs := by
  rcases step_eq_cases s with ⟨rest, -, hstep⟩ | hstep | ⟨hpend, w, rest, hstep, -, hw⟩ <;> rw [hstep]
  · exact .next hcomplete
  · obtain ⟨t, ht, hready⟩ := resetSequence_answers (s := beginOp s.requests s) hcomplete
    exact ⟨t, ht, hready.complete⟩
  · obtain ⟨i, hd⟩ : ∃ i, decode w = .ok i := hw.elim (hwords w) fun h => ⟨.tick, h ▸ decode_tickWord⟩
    have hready : Ready (beginOp rest s) := ⟨hcomplete, hs.resolve_left (by simp [hpend])⟩
    obtain ⟨t, ht, hready'⟩ := exec_answers i hready
    exact ⟨t, by rw [runCommand_of_decode hd, ht], hready'.complete⟩

/-- Settles O56: the step completes, no step empties BATT, and none adds a request. -/
theorem runFromResetGoesOn : Obligations.RunFromResetGoesOn := by
  intro s hs hwords hcomplete
  obtain ⟨t, hstep, hrest⟩ := step_answers hs hwords hcomplete
  exact ⟨t, hstep, step_battReady hs hstep, fun w hw => hwords w (step_requests_subset hstep hw), hrest⟩

end Sys2Proof.Machine
end

section
/-! SUPPORT. Invariants of every step: the canonical sector (R80, R90), the idle lines and the device's agreement with ATT_CUR (R50, R41,
R226), and the base of each ramp (R202); and the reset state, which meets every invariant. -/

namespace Sys2Proof.Machine

/-! ### The canonical sector -/

section
variable {s : State}

theorem prefAppend_wf (c : Byte) (h : Memory.wf s.sector = true) : Memory.wf (prefAppend c s).2.sector = true := by
  have hwrite := nvWrite_wf (s.prefCur.setWidth 9) c s h
  unfold prefAppend
  dsimp only
  split <;> exact hwrite

theorem prefCommit_wf (c : Byte) (h : Memory.wf s.sector = true) : Memory.wf (prefCommit c s).2.sector = true := by
  unfold prefCommit
  split
  · exact h
  · split
    · dsimp only
      split
      · exact prefAppend_wf (s := prefAppended 0#10 s.prefEff (nvErase s).2) c (nvErase_wf s)
      · exact nvErase_wf s
    · exact prefAppend_wf c h

theorem prefWrite_wf (r : Byte) (h : Memory.wf s.sector = true) : Memory.wf (prefWrite r s).2.sector = true := by
  have hread : Memory.wf (prefRead s).2.sector = true := by rwa [prefRead_sector]
  unfold prefWrite
  dsimp only
  split
  · exact prefCommit_wf _ h
  · split
    · exact prefCommit_wf _ hread
    · exact hread

end

/-- Every shared operation keeps the sector canonical: only those of the preference log reach it. -/
theorem canonicalSector_keptByParts : KeptByParts fun s => Memory.wf s.sector = true where
  outside _ _ _ _ _ h := h
  count _ _ _ h := h
  switch s sw r _ h := by rwa [setSwitchRegs_sector]
  led _ _ h := h
  curve _ _ h := h
  vuState _ _ h := h
  frame s l h := by rwa [stepSet_eq]
  goal _ _ _ h := h
  sample _ _ h := h
  battery _ _ h := h
  override _ _ _ h := h
  display s t hr h := by rwa [(render_leavesLog hr).sector]
  initialise _ h := prefInitialise_wf h
  scan s h := by rwa [prefRead_sector]
  append _ r h := prefWrite_wf r h

/-- Settles O52. -/
theorem stepKeepsCanonicalSector : Obligations.StepKeepsCanonicalSector :=
  fun _ _ hwf hstep => canonicalSector_keptByParts.step (fun _ h => h) hstep hwf

/-! ### The serial lines and the device -/

/-- The lines are idle and the device holds what it takes from ATT_CUR. -/
def SerialIdle (s : State) : Prop := PinsIdle s ∧ DeviceShadowed s

theorem stepSet_serialIdle (level : Byte) (s : State) : SerialIdle (stepSet level s) := by
  rw [stepSet_eq]
  exact ⟨⟨rfl, rfl, rfl⟩, rfl⟩

theorem PrefOnly.serialIdle {s t : State} (ht : PrefOnly s t) (h : SerialIdle s) : SerialIdle t := by
  obtain ⟨_, _, _, _, _, _, -, rfl⟩ := ht
  exact h

/-- Every shared operation keeps the lines and the device: only a frame drives them, and it leaves them so itself. -/
theorem serialIdle_keptByParts : KeptByParts SerialIdle where
  outside _ _ _ _ _ h := h
  count _ _ _ h := h
  switch s sw r _ h := by cases sw <;> exact h
  led _ _ h := h
  curve _ _ h := h
  vuState _ _ h := h
  frame s l _ := stepSet_serialIdle l s
  goal _ _ _ h := h
  sample _ _ h := h
  battery _ _ h := h
  override _ _ _ h := h
  display s t hr h := by
    obtain ⟨_, _, _, _, _, _, _, rfl⟩ := render_frame hr
    exact h
  initialise s h := (prefInitialise_prefOnly s).serialIdle h
  scan s h := (prefRead_prefOnly s).serialIdle h
  append s r h := (prefWrite_prefOnly r s).serialIdle h

/-- The register reset idles the lines, and leaves no frame sent for the device to agree with (R360). -/
theorem registerReset_serialIdle (s : State) : SerialIdle (registerReset s) := ⟨⟨rfl, rfl, rfl⟩, trivial⟩

/-- Settles O53. -/
theorem stepKeepsLinesIdleAndShadow : Obligations.StepKeepsLinesIdleAndShadow :=
  fun _ _ hpins hdevice hstep =>
    serialIdle_keptByParts.step (fun u _ => registerReset_serialIdle u) hstep ⟨hpins, hdevice⟩

/-! ### The base of a ramp -/

/-- The last frame sent was at ATT_PREV (R202). -/
def RampBase (s : State) : Prop := s.attCur = some (s.attPrev.setWidth 8)

/-- An operation that is none of TICK, RVCUPD and STEPSET leaves ATT_PREV and ATT_CUR (R58). -/
theorem exec_rampBase_of_ne {i : Instr} {s t : State} (h : exec i s = .next t) (hs : RampBase s) (htick : i ≠ .tick)
    (hrvc : ∀ f, i ≠ .rvcupd f) (hset : ∀ l, i ≠ .stepset l) : RampBase t := by
  obtain ⟨-, -, -, -, -, hprev, hcur, -⟩ := registersWrittenOnlyByNamed i s t h
  obtain ⟨hcur, -⟩ := hcur htick hrvc hset
  rw [RampBase, hcur, hprev htick hrvc]
  exact hs

theorem rampBase_at_goal {goal : Nat} (h : goal ≤ 64) : (BitVec.ofNat 7 goal).setWidth 8 = BitVec.ofNat 8 goal := by
  apply BitVec.eq_of_toNat_eq
  rw [BitVec.toNat_setWidth, ofNat7_toNat h, ofNat8_toNat (by omega), Nat.mod_eq_of_lt (by omega)]

theorem framesSent_rampBase {goal : Nat} (h : goal ≤ 64) (es : List Event) (s : State) :
    RampBase (setAttPrev goal (framesSent (BitVec.ofNat 8 goal) es s)) :=
  congrArg some (rampBase_at_goal h).symm

/-- A forced update sends the frame of the goal, whatever was sent before (R200). -/
theorem rvcUpdate_forced_rampBase {s t : State} (h : rvcUpdate true s = .next t) : RampBase t := by
  obtain ⟨raw, s1, -, rfl⟩ := rvcUpdate_eq_next.1 h
  rw [sendUpdate_forced]
  exact framesSent_rampBase (target_le _ _) _ _

/-- An update that is not forced ends its ramp at the goal, or finds ATT_PREV there (R200). -/
theorem rvcUpdate_rampBase {s t : State} (h : rvcUpdate false s = .next t) (hs : RampBase s) : RampBase t := by
  obtain ⟨raw, s1, hread, rfl⟩ := rvcUpdate_eq_next.1 h
  obtain ⟨-, rfl⟩ := adcRead_eq_ok.1 hread
  rw [sendUpdate_ramp]
  split
  next hstay =>
    have hprev : BitVec.ofNat 7 s.attPrev.toNat = s.attPrev := by rw [BitVec.ofNat_toNat, BitVec.setWidth_eq]
    rw [hstay]
    show s.attCur = some ((BitVec.ofNat 7 s.attPrev.toNat).setWidth 8)
    rw [hprev]
    exact hs
  next => exact framesSent_rampBase (target_le _ _) _ _

theorem rvcUpdate_keeps_rampBase {force : Bool} {s t : State} (h : rvcUpdate force s = .next t) (hs : RampBase s) :
    RampBase t := by
  cases force with
  | true => exact rvcUpdate_forced_rampBase h
  | false => exact rvcUpdate_rampBase h hs

/-- Every instruction but STEPSET keeps the base of the ramp. -/
theorem exec_rampBase {i : Instr} {s t : State} (hset : ∀ l, i ≠ .stepset l) (h : exec i s = .next t) (hs : RampBase s) :
    RampBase t := by
  cases i with
  | stepset level => exact absurd rfl (hset level)
  | rvcupd force => exact rvcUpdate_keeps_rampBase h hs
  | tick =>
    refine tickOp_keeps (P := RampBase) (fun i u v hi hpart hu => ?_) h hs
    cases i with
    | rvcupd force => exact rvcUpdate_keeps_rampBase hpart hu
    | debounce _ | vusamp | render | batsamp => exact exec_rampBase_of_ne hpart hu nofun nofun nofun
    | _ => cases hi
  | _ => exact exec_rampBase_of_ne h hs nofun nofun nofun


/-- Settles O54: the reset sequence ends with a forced frame at ATT_PREV, and no word is a STEPSET. -/
theorem stepKeepsRampBase : Obligations.StepKeepsRampBase := by
  intro s t hwords hbase hstep
  refine ⟨fun w hw => hwords w (step_requests_subset hstep hw), ?_⟩
  rcases step_cases hstep with ⟨rest, -, rfl⟩ | ⟨-, -, hrun⟩ | ⟨hpend, w, rest, i, hd, hexec, hreq⟩
  · exact .inl rfl
  · obtain ⟨u, -, hrvc⟩ := resetSequence_eq_next.1 hrun
    exact .inr (rvcUpdate_forced_rampBase hrvc)
  · have hs : RampBase s := hbase.resolve_left (by simp [hpend])
    have hset : ∀ l, i ≠ .stepset l := by
      rintro l rfl
      rcases hreq with hreq | ⟨rfl, -⟩
      · obtain ⟨hnot, -⟩ := hwords w (by rw [hreq]; exact List.mem_cons_self)
        exact hnot l hd
      · cases hd
    exact .inr (exec_rampBase hset hexec hs)

/-! ### The reset state -/

theorem logInvariant_of_erased {s : State} (h : SectorErased s.sector) (hinit : s.prefInit = false) : LogInvariant s :=
  logInvariant_of_unready (logShape_erased h) hinit

/-- Settles O51: `State.reset` is a register reset of itself, with empty lists. -/
theorem resetMeetsInvariants : Obligations.ResetMeetsInvariants := by
  have hlegal : Legal State.reset := (legalRegisters_iff _).1 (registerReset_legalRegisters State.reset)
  obtain ⟨hpins, hdevice⟩ : SerialIdle State.reset := registerReset_serialIdle State.reset
  exact ⟨hlegal, reset_sector_wf, hpins, hdevice, fun _ => List.not_mem_nil, fun _ hw => absurd hw List.not_mem_nil, rfl,
    .inl rfl, fun _ hw => absurd hw List.not_mem_nil, ⟨List.not_mem_nil, List.not_mem_nil, List.not_mem_nil⟩,
    logInvariant_of_erased (fun _ _ => rfl) rfl, fun _ => logInvariant_of_erased⟩

end Sys2Proof.Machine
end

section
/-! SUPPORT. The state after the reset sequence, every NV read of it successful (R361, R362): PREFREAD's scan down to the newest record, the
modes that record restores, the battery sample, and the forced frame at the target. -/

namespace Sys2Proof.Machine

/-- A read whose accesses all succeed finds the newest record, or the default where there is none (R302). -/
theorem prefRead_of_found {s : State} {a cur : Nat} {b : Byte}
    (hfound : (NewestRecord s.sector a b ∧ cur = a + 1) ∨ (NoRecord s.sector ∧ a = 0 ∧ b = 0x00#8 ∧ cur = 0))
    (hok : okReady (512 - a) s.inputs = true) :
    prefRead s = (some b, prefFound (BitVec.ofNat 10 cur) b (scannedDownTo a s)) := by
  rcases hfound with ⟨hnew, rfl⟩ | ⟨hnone, rfl, rfl, rfl⟩
  · exact prefRead_of_newest hnew hok
  · exact prefRead_of_noRecord hnone hok

theorem rvcBit_iff (b : Byte) : b.toNat / 8 % 2 = 1 ↔ b.getLsbD 3 = true := by
  revert b
  decide

/-- Settles O11: the four parts of the sequence, each on the state the one before leaves. -/
theorem stateAfterResetSequence : Obligations.StateAfterResetSequence := by
  intro s a cur b x y p q hpend hnext hfound hok hbatt hrvc mode level
  have hread := prefRead_of_found (s := sequenceBegun s) hfound hok
  rw [step_eq_resetSequence hpend hnext, hread, restoreModes_eq]
  simp only [rvcBit_iff, Option.getD_some]
  rw [batSample_of_ready (b := x) (p := p) hbatt, andThen_next, rvcUpdate_of_ready (raw := y) (p := q) hrvc,
    sendUpdate_forced, framesSent, deviceTakes_target]
  simp [stepSetEvents, sequenceBegun, scannedDownTo, prefFound, setAttPrev, emit, withInputs, setBatt, level, mode]

end Sys2Proof.Machine
end
